-- ==== Sys2Proof/Word.lean ====
section
/-! DEFINITION. The words that travel on the host link: bytes, and the 2-byte and 4-byte numbers made of them.
Everything the spec counts (distances, levels, identifiers, times) is a `Nat` or an `Int` elsewhere; only what the
host sends or receives as bits is a bit vector. -/

namespace Sys2Proof

/-- One byte on the link (R198). -/
abbrev Byte := BitVec 8

/-- A 2-byte number field of a request, and one sample of the receiver, 0 to 65535 (R200, R69, R84). -/
abbrev U16 := BitVec 16

/-- A 4-byte number field of a request (R200). -/
abbrev U32 := BitVec 32

end Sys2Proof
end

