-- ==== Sys2Proof/Config.lean ====
section
/-! DEFINITION. What an implementation of the part fixes and the spec does not: the one open choice of order, the
reports of the position senses in the pass of a window open, and the input levels that the model's reset state presumes. -/

namespace Sys2Proof

/-- The open choice "either may go first" of R93 (two jobs returned to the head of one queue by one assertion of
INHIBIT) and of R100 (two channels that hand on together, at one window close). Draw `n` answers whether channel B's job
is taken first. It has no body: nothing can be proved about which order is taken (log entry 7). -/
opaque Config.eitherFirst : Nat → Bool

/-- What bank A's position sense reports, a position 0 to 60 or NONE (R60), during the dispatch pass of a window open (R164,
R63). It has no body: nothing can be proved about what is reported (log entry 27). -/
opaque Config.senseA : Nat → Option (Fin 61)

/-- What bank B's position sense reports during the dispatch pass of a window open (log entry 27). -/
opaque Config.senseB : Nat → Option (Fin 61)

/-- The strap inputs BANK_B_FITTED, DUAL_A and DUAL_B, as one reading of the pins (R26, R61, R79). -/
structure Straps where
  bankB : Bool
  dualA : Bool
  dualB : Bool
deriving DecidableEq, Repr

/-- The strap levels that `State.reset` presumes: everything fitted. The spec gives the pins no level of their own
(DESIGN CHOICE, log entry 10); POWER_ON and RESET_PIN carry every other reading. -/
def Config.resetStraps : Straps := { bankB := true, dualA := true, dualB := true }

/-- The level of the INHIBIT input that `State.reset` presumes: released (DESIGN CHOICE, log entry 10). -/
def Config.resetInhibit : Bool := false

end Sys2Proof
end

