-- ==== Sys2Proof/Syntax.lean ====
section
/-! DEFINITION. The commands that reach the block: one constructor for each row of spec/opcode_table.json, with what the
command carries. A request carries its body's fields at the width they have on the link (R200: a number field is read at
its full width before the owning rule clamps or refuses it); an event carries what the part senses at it. -/

namespace Sys2Proof

/-- The two letters that name the two acquisition channels and the two bank switches. -/
inductive Letter where
  | A
  | B
deriving DecidableEq, Repr

/-- What a position sense reports: a position 0 to 60, or `none` for NONE (R60). -/
abbrev Sense := Option (Fin 61)

/-- The 25 bytes of a SPAN_PUT body, field by field in the order they travel (R201). -/
structure SpanFields where
  identifier     : U16
  bank           : Byte
  position       : Byte
  profile        : Byte
  cls            : Byte
  interval       : Byte
  phase          : Byte
  groupIndex     : U16
  launchOffset   : U16
  attenuation    : U16
  lossThreshold  : U16
  driftThreshold : U16
  bendMargin     : U16
  matchTolerance : U16
  confirmCount   : Byte
  clearCount     : Byte
  clearFlags     : Byte
deriving DecidableEq, Repr

/-- The 11 bytes of a PROFILE_SET body (R202). -/
structure ProfileFields where
  number              : Byte
  pulseCode           : Byte
  spacing             : Byte
  pointCount          : U16
  shotExponent        : Byte
  window              : Byte
  reflectiveThreshold : U16
  endMargin           : U16
deriving DecidableEq, Repr

/-- The five severity bytes of SEVERITY_SET, in the order of the condition-kind codes (R202, R200). -/
structure SeverityFields where
  forBreak      : Byte
  forBend       : Byte
  forLoss       : Byte
  forDrift      : Byte
  forReflection : Byte
deriving DecidableEq, Repr

/-- The commands: 30 requests, 3 link events, 2 resets, and 10 events inside the part. -/
inductive Instr where
  /-- SPAN_PUT (R6): create or edit a span. -/
  | spanPut (fields : SpanFields)
  /-- SPAN_GET (R11). -/
  | spanGet (id : U16)
  /-- SPAN_BY_PORT (R12). -/
  | spanByPort (bank position : Byte)
  /-- SPAN_NEXT (R13). -/
  | spanNext (id : U16)
  /-- SPAN_HOLD (R14). -/
  | spanHold (id : U16)
  /-- SPAN_RESUME (R15). -/
  | spanResume (id : U16)
  /-- SPAN_RETIRE (R18). -/
  | spanRetire (id : U16)
  /-- SPAN_LEARN (R16). -/
  | spanLearn (id : U16)
  /-- MARKS_APPEND (R34): the whole body, since R32 itself checks the body's length. -/
  | marksAppend (body : List Byte)
  /-- MARKS_READ (R36). -/
  | marksRead (id : U16) (start : Byte)
  /-- MARKS_CLEAR (R37). -/
  | marksClear (id : U16)
  /-- TEST_NOW (R171). -/
  | testNow (id : U16)
  /-- TEST_CANCEL (R172). -/
  | testCancel (id : U16)
  /-- COND_GET (R154). -/
  | condGet (tag : U16)
  /-- COND_NEXT (R155). -/
  | condNext (id tag : U16)
  /-- COND_ACK (R156). -/
  | condAck (tag : U16)
  /-- COND_RETIRE (R157). -/
  | condRetire (tag : U16)
  /-- SEVERITY_SET (R143). -/
  | severitySet (fields : SeverityFields)
  /-- PROFILE_SET (R56). -/
  | profileSet (fields : ProfileFields)
  /-- PROFILE_GET (R57). -/
  | profileGet (number : Byte)
  /-- CLOCK_SET (R162). -/
  | clockSet (timeOfDay : U32)
  /-- WINDOW_SET (R163). -/
  | windowSet (openTime closeTime : U32)
  /-- CLASS_SET (R173). -/
  | classSet (cls weight preemptible : Byte)
  /-- GUARD_SET (R73). -/
  | guardSet (overload live : U16)
  /-- COIL_SET (R74). -/
  | coilSet (bank : Byte) (length : U32) (groupIndex : U16)
  /-- BANK_RESTORE (R68); `sense` is what the named bank's position sense reports if the restore settles at once. -/
  | bankRestore (bank : Byte) (sense : Sense)
  /-- STATUS_GET (R196). -/
  | statusGet
  /-- CHANGES_READ (R193). -/
  | changesRead
  /-- ATTENTION_SET (R192): one enable byte for each category. -/
  | attentionSet (span condition unit : Byte)
  /-- RESTART (R197). -/
  | restart
  /-- FRAME_REFUSED (R186): a request period whose frame the link interface refuses; every byte clocked in. -/
  | frameRefused (frame : List Byte)
  /-- READ_PERIOD (R188): a select period opened with a zero byte; `clocked` bytes pass, that one included. -/
  | readPeriod (clocked : Nat)
  /-- IGNORED_PERIOD (R185): a select period begun while READY is low; `clocked` bytes pass. -/
  | ignoredPeriod (clocked : Nat)
  /-- POWER_ON (R184): the straps are sampled and the INHIBIT input stands as given. -/
  | powerOn (straps : Straps) (inhibit : Bool)
  /-- RESET_PIN (R184). -/
  | resetPin (straps : Straps) (inhibit : Bool)
  /-- INHIBIT_ASSERTED (R92). -/
  | inhibitAsserted
  /-- INHIBIT_RELEASED (R94). -/
  | inhibitReleased
  /-- TIME_ADVANCE (R161). -/
  | timeAdvance
  /-- SETTLE_COMPLETION (R64): what the bank's position sense reports at it. -/
  | settleCompletion (bank : Letter) (sense : Sense)
  /-- GUARD_COMPLETION (R69): the sum of the 800,000 samples of the guard. -/
  | guardCompletion (channel : Letter) (sum : Nat)
  /-- SHOT_ACCUMULATED (R85): the samples of the shot, one for each bin of the range, bin 0 first. -/
  | shotAccumulated (channel : Letter) (samples : List U16)
  /-- ACQUISITION_COMPLETION (R86). -/
  | acquisitionCompletion (channel : Letter)
  /-- DISPATCH_PASS (R174): what the two position senses report during the pass, for a settle completion at a take. -/
  | dispatchPass (senseA senseB : Sense)
  /-- ANALYSIS_TAKE (R101). -/
  | analysisTake
  /-- ANALYSIS_COMPLETION (R105). -/
  | analysisCompletion
deriving DecidableEq, Repr

end Sys2Proof
end

