-- ==== Sys2Proof/Decode.lean ====
section
/-! DEFINITION. The byte order of the link, the table of request codes and body lengths, the frame checks of the link
interface, and the reading and writing of request frames. The opcode table gives no row any bits, so `decodeTableWord`
reads none. -/

namespace Sys2Proof

/-- The low byte of a number. -/
def byte (n : Nat) : Byte := BitVec.ofNat 8 n

/-- A number as 2 bytes, most significant first (R198). -/
def be16 (n : Nat) : List Byte := [byte (n / 256), byte n]

/-- A number as 4 bytes, most significant first (R198). -/
def be32 (n : Nat) : List Byte := [byte (n / 16777216), byte (n / 65536), byte (n / 256), byte n]

/-- The 2-byte field that two bytes spell. -/
def join16 (hi lo : Byte) : U16 := BitVec.ofNat 16 (hi.toNat * 256 + lo.toNat)

/-- The 4-byte field that four bytes spell. -/
def join32 (b3 b2 b1 b0 : Byte) : U32 :=
  BitVec.ofNat 32 (((b3.toNat * 256 + b2.toNat) * 256 + b1.toNat) * 256 + b0.toNat)

/-- The two bytes of a 2-byte field. -/
def split16 (x : U16) : List Byte := be16 x.toNat

/-- The four bytes of a 4-byte field. -/
def split32 (x : U32) : List Byte := be32 x.toNat

/-- The statuses of a response (R190). -/
inductive Status where
  | ok | clamped | badRequest | badField | badOrder | notFound | exists_ | spanBusy | wrongState
  | tableFull | poolFull | listFull | queueFull | frameShort | bankAbsent
deriving DecidableEq, Repr

/-- The code of each status (R198). -/
def Status.code : Status → Byte
  | .ok => 0x00
  | .clamped => 0x01
  | .badRequest => 0x10
  | .badField => 0x11
  | .badOrder => 0x12
  | .notFound => 0x13
  | .exists_ => 0x14
  | .spanBusy => 0x15
  | .wrongState => 0x16
  | .tableFull => 0x17
  | .poolFull => 0x18
  | .listFull => 0x19
  | .queueFull => 0x1A
  | .frameShort => 0x1B
  | .bankAbsent => 0x1C

/-- OK and CLAMPED report a request that was taken (R190). -/
def Status.taken : Status → Bool
  | .ok => true
  | .clamped => true
  | _ => false

/-- How long a request's body is: a fixed number of bytes, or set by the count it holds (R199). -/
inductive BodyLength where
  | fixed (n : Nat)
  | counted
deriving DecidableEq, Repr

/-- One row of the request table of R199. -/
structure RequestRow where
  code : Nat
  body : BodyLength
deriving DecidableEq, Repr

/-- The span, landmark and test requests of R199. -/
def requestRowsLow : List RequestRow :=
  [⟨0x01, .fixed 25⟩, ⟨0x02, .fixed 2⟩, ⟨0x03, .fixed 2⟩, ⟨0x04, .fixed 2⟩, ⟨0x05, .fixed 2⟩, ⟨0x06, .fixed 2⟩,
   ⟨0x07, .fixed 2⟩, ⟨0x08, .fixed 2⟩, ⟨0x10, .counted⟩, ⟨0x11, .fixed 3⟩, ⟨0x12, .fixed 2⟩, ⟨0x18, .fixed 2⟩,
   ⟨0x19, .fixed 2⟩]

/-- The condition, setting and status requests of R199. -/
def requestRowsHigh : List RequestRow :=
  [⟨0x20, .fixed 2⟩, ⟨0x21, .fixed 4⟩, ⟨0x22, .fixed 2⟩, ⟨0x23, .fixed 2⟩, ⟨0x24, .fixed 5⟩, ⟨0x28, .fixed 11⟩,
   ⟨0x29, .fixed 1⟩, ⟨0x30, .fixed 4⟩, ⟨0x31, .fixed 8⟩, ⟨0x32, .fixed 3⟩, ⟨0x38, .fixed 4⟩, ⟨0x39, .fixed 7⟩,
   ⟨0x3A, .fixed 1⟩, ⟨0x40, .fixed 0⟩, ⟨0x41, .fixed 0⟩, ⟨0x42, .fixed 3⟩, ⟨0x4F, .fixed 0⟩]

/-- The 30 requests of R199. -/
def requestRows : List RequestRow := requestRowsLow ++ requestRowsHigh

/-- The row of a request code, if the code names a request. -/
def requestRow (code : Byte) : Option RequestRow := requestRows.find? (fun r => r.code == code.toNat)

/-- What the frame checks of R186 make of the bytes of a request period. -/
inductive FrameCheck where
  /-- The frame is refused with this status, and reaches no block. -/
  | refused (status : Status)
  /-- The frame passes: its code and its declared body. -/
  | passed (code : Byte) (body : List Byte)
deriving DecidableEq, Repr

/-- The checks of R186, in the order given there. -/
def checkFrame : List Byte → FrameCheck
  | code :: hi :: lo :: rest =>
    let declared := (join16 hi lo).toNat
    match requestRow code with
    | none => .refused .badRequest
    | some row =>
      if declared > 512 then .refused .badRequest
      else if rest.length < declared then .refused .frameShort
      else if row.body = .fixed declared ∨ row.body = .counted then .passed code (rest.take declared)
      else .refused .badField
  | _ => .refused .frameShort

/-- The request that a code and a body of the right length spell, by the layouts of R201 and R202. The position sense is
no part of the frame: BANK_RESTORE takes what the sense reports at its act. -/
def parseRequest (sense : Sense) (code : Byte) (body : List Byte) : Option Instr :=
  match code.toNat, body with
  | 0x01, [a0, a1, b, p, pr, c, i, ph, g0, g1, l0, l1, t0, t1, s0, s1, d0, d1, m0, m1, o0, o1, cc, kc, fl] =>
    some (.spanPut
      { identifier := join16 a0 a1, bank := b, position := p, profile := pr, cls := c, interval := i, phase := ph,
        groupIndex := join16 g0 g1, launchOffset := join16 l0 l1, attenuation := join16 t0 t1,
        lossThreshold := join16 s0 s1, driftThreshold := join16 d0 d1, bendMargin := join16 m0 m1,
        matchTolerance := join16 o0 o1, confirmCount := cc, clearCount := kc, clearFlags := fl })
  | 0x02, [a, b] => some (.spanGet (join16 a b))
  | 0x03, [a, b] => some (.spanByPort a b)
  | 0x04, [a, b] => some (.spanNext (join16 a b))
  | 0x05, [a, b] => some (.spanHold (join16 a b))
  | 0x06, [a, b] => some (.spanResume (join16 a b))
  | 0x07, [a, b] => some (.spanRetire (join16 a b))
  | 0x08, [a, b] => some (.spanLearn (join16 a b))
  | 0x10, body => some (.marksAppend body)
  | 0x11, [a, b, i] => some (.marksRead (join16 a b) i)
  | 0x12, [a, b] => some (.marksClear (join16 a b))
  | 0x18, [a, b] => some (.testNow (join16 a b))
  | 0x19, [a, b] => some (.testCancel (join16 a b))
  | 0x20, [a, b] => some (.condGet (join16 a b))
  | 0x21, [a, b, c, d] => some (.condNext (join16 a b) (join16 c d))
  | 0x22, [a, b] => some (.condAck (join16 a b))
  | 0x23, [a, b] => some (.condRetire (join16 a b))
  | 0x24, [a, b, c, d, e] =>
    some (.severitySet { forBreak := a, forBend := b, forLoss := c, forDrift := d, forReflection := e })
  | 0x28, [n, p, s, c0, c1, k, w, r0, r1, e0, e1] =>
    some (.profileSet
      { number := n, pulseCode := p, spacing := s, pointCount := join16 c0 c1, shotExponent := k, window := w,
        reflectiveThreshold := join16 r0 r1, endMargin := join16 e0 e1 })
  | 0x29, [n] => some (.profileGet n)
  | 0x30, [a, b, c, d] => some (.clockSet (join32 a b c d))
  | 0x31, [a, b, c, d, e, f, g, h] => some (.windowSet (join32 a b c d) (join32 e f g h))
  | 0x32, [c, w, p] => some (.classSet c w p)
  | 0x38, [a, b, c, d] => some (.guardSet (join16 a b) (join16 c d))
  | 0x39, [k, a, b, c, d, e, f] => some (.coilSet k (join32 a b c d) (join16 e f))
  | 0x3A, [k] => some (.bankRestore k sense)
  | 0x40, [] => some .statusGet
  | 0x41, [] => some .changesRead
  | 0x42, [a, b, c] => some (.attentionSet a b c)
  | 0x4F, [] => some .restart
  | _, _ => none

/-- The command that the bytes of a request period stand for: the request they spell, or the refusal of the frame
(R185, R186). A period with no byte, or with a first byte of 0, is no request period. -/
def decodeFrame (sense : Sense) (frame : List Byte) : Option Instr :=
  if frame.headD 0 = 0 then none
  else
    match checkFrame frame with
    | .refused _ => some (.frameRefused frame)
    | .passed code body => parseRequest sense code body

/-- The body of SPAN_PUT (R201). -/
def SpanFields.bytes (b : SpanFields) : List Byte :=
  split16 b.identifier ++ [b.bank, b.position, b.profile, b.cls, b.interval, b.phase] ++ split16 b.groupIndex ++
    split16 b.launchOffset ++ split16 b.attenuation ++ split16 b.lossThreshold ++ split16 b.driftThreshold ++
    split16 b.bendMargin ++ split16 b.matchTolerance ++ [b.confirmCount, b.clearCount, b.clearFlags]

/-- The body of PROFILE_SET (R202). -/
def ProfileFields.bytes (b : ProfileFields) : List Byte :=
  [b.number, b.pulseCode, b.spacing] ++ split16 b.pointCount ++ [b.shotExponent, b.window] ++
    split16 b.reflectiveThreshold ++ split16 b.endMargin

/-- The request code and body of a request; `none` for a command that is no request (R199, R201, R202). -/
def requestBody : Instr → Option (Nat × List Byte)
  | .spanPut b => some (0x01, b.bytes)
  | .spanGet id => some (0x02, split16 id)
  | .spanByPort bank position => some (0x03, [bank, position])
  | .spanNext id => some (0x04, split16 id)
  | .spanHold id => some (0x05, split16 id)
  | .spanResume id => some (0x06, split16 id)
  | .spanRetire id => some (0x07, split16 id)
  | .spanLearn id => some (0x08, split16 id)
  | .marksAppend body => some (0x10, body)
  | .marksRead id start => some (0x11, split16 id ++ [start])
  | .marksClear id => some (0x12, split16 id)
  | .testNow id => some (0x18, split16 id)
  | .testCancel id => some (0x19, split16 id)
  | .condGet tag => some (0x20, split16 tag)
  | .condNext id tag => some (0x21, split16 id ++ split16 tag)
  | .condAck tag => some (0x22, split16 tag)
  | .condRetire tag => some (0x23, split16 tag)
  | .severitySet f => some (0x24, [f.forBreak, f.forBend, f.forLoss, f.forDrift, f.forReflection])
  | .profileSet f => some (0x28, f.bytes)
  | .profileGet n => some (0x29, [n])
  | .clockSet t => some (0x30, split32 t)
  | .windowSet o c => some (0x31, split32 o ++ split32 c)
  | .classSet c w p => some (0x32, [c, w, p])
  | .guardSet o l => some (0x38, split16 o ++ split16 l)
  | .coilSet b l g => some (0x39, [b] ++ split32 l ++ split16 g)
  | .bankRestore b _ => some (0x3A, [b])
  | .statusGet => some (0x40, [])
  | .changesRead => some (0x41, [])
  | .attentionSet a b c => some (0x42, [a, b, c])
  | .restart => some (0x4F, [])
  | .frameRefused _ => none
  | .readPeriod _ => none
  | .ignoredPeriod _ => none
  | .powerOn _ _ => none
  | .resetPin _ _ => none
  | .inhibitAsserted => none
  | .inhibitReleased => none
  | .timeAdvance => none
  | .settleCompletion _ _ => none
  | .guardCompletion _ _ => none
  | .shotAccumulated _ _ => none
  | .acquisitionCompletion _ => none
  | .dispatchPass _ _ => none
  | .analysisTake => none
  | .analysisCompletion => none

/-- The frame of a request: code, declared body length, body (R198). -/
def encodeFrame (i : Instr) : Option (List Byte) :=
  (requestBody i).map fun (code, body) => [byte code] ++ be16 body.length ++ body

/-- spec/opcode_table.json gives no row any bits: no word spells a command (log entry 18). -/
def decodeTableWord (_nbits _w : Nat) : Option Instr := none

end Sys2Proof
end

