-- ==== Sys2Proof/Machine/State.lean ====
section
/-! DEFINITION. The state of the block as plain data: every record, queue, counter, mark and input level that the spec
names, the queue of waiting commands, and the state right after reset. Where the spec gives one thing two names, it is
stored once and the other is a function of it (log entry 12). -/

namespace Sys2Proof.Machine

/-- Nothing in the spec stops the block, so there is no reason to stop with: requests are refused by a status in their
response (R190), and an event that the part is not waiting for leaves it as it is (R80). -/
inductive Fault where
deriving DecidableEq, Repr

/-- Why the model has no answer for a command. -/
inductive Refusal where
  /-- Raised by `exec` for a command that has no meaning yet. Safe: the model stops where the part goes on. No arm raises
  it. -/
  | notModelled (mnemonic : String)
deriving DecidableEq, Repr

/-! ### Small containers -/

/-- A thing for each of the two channels, or for each of the two banks. -/
structure Pair (α : Type) where
  a : α
  b : α
deriving DecidableEq, Repr

/-- The thing for the letter. -/
def Pair.get {α : Type} (p : Pair α) : Letter → α
  | .A => p.a
  | .B => p.b

/-- The pair with the thing for the letter replaced. -/
def Pair.set {α : Type} (p : Pair α) (l : Letter) (x : α) : Pair α :=
  match l with
  | .A => { p with a := x }
  | .B => { p with b := x }

/-- The pair with `f` applied to both things. -/
def Pair.map {α β : Type} (f : α → β) (p : Pair α) : Pair β := { a := f p.a, b := f p.b }

/-- Four numbered things: class queues, class settings, trace buffers. -/
structure Quad (α : Type) where
  x0 : α
  x1 : α
  x2 : α
  x3 : α
deriving DecidableEq, Repr

/-- The thing with this number. -/
def Quad.get {α : Type} (q : Quad α) (i : Fin 4) : α :=
  match i with
  | 0 => q.x0
  | 1 => q.x1
  | 2 => q.x2
  | 3 => q.x3

/-- The quad with the thing with this number replaced. -/
def Quad.set {α : Type} (q : Quad α) (i : Fin 4) (x : α) : Quad α :=
  match i with
  | 0 => { q with x0 := x }
  | 1 => { q with x1 := x }
  | 2 => { q with x2 := x }
  | 3 => { q with x3 := x }

/-- The quad with `f` applied to every thing. -/
def Quad.map {α β : Type} (f : α → β) (q : Quad α) : Quad β :=
  { x0 := f q.x0, x1 := f q.x1, x2 := f q.x2, x3 := f q.x3 }

/-- The four things in the order of their numbers. -/
def Quad.toList {α : Type} (q : Quad α) : List α := [q.x0, q.x1, q.x2, q.x3]

/-- Eight numbered things: the profile table. -/
structure Octet (α : Type) where
  x0 : α
  x1 : α
  x2 : α
  x3 : α
  x4 : α
  x5 : α
  x6 : α
  x7 : α
deriving DecidableEq, Repr

/-- The thing with this number. -/
def Octet.get {α : Type} (o : Octet α) (i : Fin 8) : α :=
  match i with
  | 0 => o.x0
  | 1 => o.x1
  | 2 => o.x2
  | 3 => o.x3
  | 4 => o.x4
  | 5 => o.x5
  | 6 => o.x6
  | 7 => o.x7

/-- The octet with the thing with this number replaced. -/
def Octet.set {α : Type} (o : Octet α) (i : Fin 8) (x : α) : Octet α :=
  match i with
  | 0 => { o with x0 := x }
  | 1 => { o with x1 := x }
  | 2 => { o with x2 := x }
  | 3 => { o with x3 := x }
  | 4 => { o with x4 := x }
  | 5 => { o with x5 := x }
  | 6 => { o with x6 := x }
  | 7 => { o with x7 := x }

/-! ### The link interface (chapter 10) -/

/-- Where the link stands in an exchange (R184). -/
inductive LinkState where
  | readyIdle | receiving | working | responseWaiting | sending
deriving DecidableEq, Repr

/-- A response frame: status, the two flags of the flags byte, body (R187, R198). -/
structure Response where
  status         : Status
  priorDiscarded : Bool
  attnPending    : Bool
  body           : List Byte
deriving DecidableEq, Repr

/-- The attention enables (R184, R192). -/
structure Enables where
  span      : Bool
  condition : Bool
  unit      : Bool
deriving DecidableEq, Repr

/-- The link interface (R184). `dataOut` is the model's own record of the data-out pin: the bytes clocked out in the last
select period (log entry 17). -/
structure Link where
  state         : LinkState
  requestBuffer : List Byte
  response      : Option Response
  discardNote   : Bool
  enables       : Enables
  dataOut       : List Byte
deriving DecidableEq, Repr

/-! ### Spans and landmarks (chapters 1 and 2) -/

/-- The states of a span that exists (R5). EMPTY is the absence of a record. -/
inductive SpanState where
  | draft | learning | active | held | retiring
deriving DecidableEq, Repr

/-- The outcomes a span records (R2). -/
inductive LastOutcome where
  | none_ | clean | findings | stale | noEnd | bankFault | liveOverload | cancelled
deriving DecidableEq, Repr

/-- The kinds of landmark (R28). -/
inductive LandmarkKind where
  | connector | splice | splitter | farEnd
deriving DecidableEq, Repr

/-- A landmark entry (R28). -/
structure Landmark where
  distance : Nat
  kind     : LandmarkKind
  loss     : Nat
  height   : Nat
deriving DecidableEq, Repr

/-- The analysis fields that SPAN_PUT clamps (R2). -/
structure ClampedFields where
  groupIndex     : Nat
  launchOffset   : Nat
  attenuation    : Nat
  lossThreshold  : Nat
  driftThreshold : Nat
  bendMargin     : Nat
  matchTolerance : Nat
  confirmCount   : Nat
  clearCount     : Nat
deriving DecidableEq, Repr

/-- The record of a span (R2). Its landmark list hangs from it (R29), and the landmark count is the list's length. -/
structure SpanRecord where
  id          : Nat
  state       : SpanState
  resume      : SpanState
  bank        : Letter
  position    : Nat
  profile     : Fin 8
  cls         : Fin 4
  interval    : Nat
  phase       : Nat
  clamped     : ClampedFields
  revision    : Nat
  landmarks   : List Landmark
  lastOutcome : LastOutcome
  lastWindow  : Nat
  lastEnd     : Option Nat
  missed      : Bool
  live        : Bool
  overflow    : Bool
  dropped     : Nat
  mark        : Bool
deriving DecidableEq, Repr

/-- An entry of the span directory: a span, or a vacated report, which holds an identifier, the state EMPTY and a set
change mark (R3). -/
inductive Entry where
  | span (r : SpanRecord)
  | vacated (id : Nat)
deriving DecidableEq, Repr

/-! ### Profiles (chapter 3) -/

/-- A profile record (R44). -/
structure Profile where
  pulseCode           : Nat
  spacing             : Nat
  pointCount          : Nat
  shotExponent        : Nat
  window              : Nat
  reflectiveThreshold : Nat
  endMargin           : Nat
deriving DecidableEq, Repr

/-- A job's copy of its profile with the values derived from it (R48). -/
structure Snapshot where
  number     : Fin 8
  profile    : Profile
  pulseBins  : Nat
  shots      : Nat
  guard      : Nat
  rangeBins  : Nat
  shotPeriod : Nat
deriving DecidableEq, Repr

/-! ### Jobs (chapter 9) -/

/-- What a job that tests a span is for (R167). A SCHEDULED job carries its class. -/
inductive TestKind where
  | scheduled (cls : Fin 4)
  | demand
  | learn
deriving DecidableEq, Repr

/-- A queued job (R167): a test of a span, or the verify job of a channel. -/
inductive Job where
  | test (kind : TestKind) (span : Nat)
  | verify (channel : Letter)
deriving DecidableEq, Repr

/-- What tells one job from another: each span has at most one job, and each channel at most one verify job (R168). -/
inductive JobId where
  | span (id : Nat)
  | verify (channel : Letter)
deriving DecidableEq, Repr

/-- A coil record, and a verify job's copy of it (R74, R75). -/
structure Coil where
  length     : Nat
  groupIndex : Nat
deriving DecidableEq, Repr

/-- What a dispatched job carries: the span and its revision snapshot, or the verify channel and its coil copy (R178). -/
inductive Work where
  | test (kind : TestKind) (span : Nat) (revision : Nat)
  | verify (channel : Letter) (coil : Coil)
deriving DecidableEq, Repr

/-- The plan of a job (R81). -/
inductive Plan where
  | dual | single
deriving DecidableEq, Repr

/-- The trim and DEGRADED flag that a job records at hand-on (R87). -/
structure Recorded where
  trim     : Int
  degraded : Bool
deriving DecidableEq, Repr

/-- The record of a dispatched job (R167). The buffers it holds are those that name it as holder (R82). -/
structure Flight where
  work         : Work
  dispatchTime : Nat
  channel      : Letter
  snapshot     : Snapshot
  plan         : Plan
  shotsDone    : Nat
  short        : Bool
  single       : Bool
  live         : Bool
  recorded     : Option Recorded
  cancelled    : Bool
deriving DecidableEq, Repr

/-- A DEMAND or LEARN job in the demand queue (R170). -/
structure DemandJob where
  span  : Nat
  learn : Bool
deriving DecidableEq, Repr

/-- The settings and credit of a class (R173). -/
structure ClassSetting where
  weight      : Nat
  preemptible : Bool
  credit      : Nat
deriving DecidableEq, Repr

/-- The scheduler's queues and class settings (R170, R173). A class queue holds the spans whose SCHEDULED job waits in it,
head first. `dispatchCalled` says that an event has called for a dispatch pass that is still to be made (R174). -/
structure Scheduler where
  classQueues    : Quad (List Nat)
  demandQueue    : List DemandJob
  verifyPlaces   : Pair Bool
  classes        : Quad ClassSetting
  dispatchCalled : Bool
deriving DecidableEq, Repr

/-- The time base (R160), with the due time of the next one-second advance. -/
structure TimeBase where
  timeOfDay    : Nat
  openTime     : Nat
  closeTime    : Nat
  windowOpen   : Bool
  windowNumber : Nat
  nextAdvance  : Nat
deriving DecidableEq, Repr

/-! ### Banks, channels and buffers (chapters 4 and 5) -/

/-- Whether a bank may be taken for a job (R60). -/
inductive Service where
  | inService | outOfService
deriving DecidableEq, Repr

/-- The motion of a bank switch; a MOVING switch has one pending settle completion, due at `due` (R60). -/
inductive Motion where
  | still
  | moving (due : Nat)
deriving DecidableEq, Repr

/-- The record of a bank switch (R60). Its present field follows the strap (`State.present`). -/
structure Bank where
  service   : Service
  holder    : Option Letter
  commanded : Nat
  motion    : Motion
  sensed    : Option Nat
  coil      : Coil
  mark      : Bool
deriving DecidableEq, Repr

/-- The guard thresholds (R73). -/
structure Thresholds where
  overload : Nat
  live     : Nat
deriving DecidableEq, Repr

/-- The busy states of a channel, each the stage of the channel's job (R80). A guard knows when it completes (R69), a
firing stage when it began (R84). -/
inductive Stage where
  | switching
  | guard (due : Nat)
  | firing1625 (since : Nat)
  | firing1310 (since : Nat)
deriving DecidableEq, Repr

/-- The state of a channel together with its job (R78, R80). -/
inductive Activity where
  | idle
  | inhibited
  | busy (stage : Stage) (flight : Flight)
deriving DecidableEq, Repr

/-- The record of a channel (R78). Its 1310 fitted field follows the strap (`State.fitted`). -/
structure Channel where
  activity    : Activity
  accumulator : List Nat
  trim        : Int
  degraded    : Bool
  mark        : Bool
deriving DecidableEq, Repr

/-- The wavelength a buffer is for (R82). -/
inductive Role where
  | nm1625 | nm1310
deriving DecidableEq, Repr

/-- A level trace as written at acquisition completion (R82, R86). -/
structure Trace where
  levels : List Nat
  shots  : Nat
  points : Nat
deriving DecidableEq, Repr

/-- A held trace buffer: its holder, its role, and its content, EMPTY as `none` (R82). -/
structure Holding where
  holder : JobId
  role   : Role
  trace  : Option Trace
deriving DecidableEq, Repr

/-! ### The analysis engine (chapter 6) -/

/-- The span values that the input copy holds (R107). A LEARN job copies no landmark list (R31). -/
structure SpanCopy where
  fields        : ClampedFields
  rangeDistance : Nat
  landmarks     : List Landmark
deriving DecidableEq, Repr

/-- Whose trace is analysed: a span, with its copied values, or a reference coil (R107). -/
inductive Subject where
  | span (copy : SpanCopy)
  | coil (coil : Coil)
deriving DecidableEq, Repr

/-- The input copy made at the take (R107). -/
structure InputCopy where
  primary   : List Nat
  secondary : Option (List Nat)
  snapshot  : Snapshot
  trim      : Int
  subject   : Subject
deriving DecidableEq, Repr

/-- The current job in ANALYSING, its input copy, and the due time of its completion (R99). -/
structure Analysis where
  flight : Flight
  input  : InputCopy
  due    : Nat
deriving DecidableEq, Repr

/-- The analysis engine (R99): the queue of jobs in WAIT_ANALYSIS, oldest first, and the current job. -/
structure Engine where
  queue   : List Flight
  current : Option Analysis
deriving DecidableEq, Repr

/-! ### Conditions (chapter 8) -/

/-- The kinds of finding and of condition (R125, R139). -/
inductive FaultKind where
  | break_ | bend | loss | drift | reflection
deriving DecidableEq, Repr

/-- The states of a condition (R139). -/
inductive CondState where
  | suspect | confirmed | clearing | retired
deriving DecidableEq, Repr

/-- A condition record (R139). -/
structure Condition where
  tag          : Nat
  span         : Nat
  kind         : FaultKind
  state        : CondState
  distance     : Nat
  magnitude    : Nat
  hits         : Nat
  misses       : Nat
  firstSeen    : Nat
  lastSeen     : Nat
  single       : Bool
  degraded     : Bool
  acknowledged : Bool
  mark         : Bool
deriving DecidableEq, Repr

/-- The severity map (R143). -/
structure SeverityMap where
  forBreak      : Nat
  forBend       : Nat
  forLoss       : Nat
  forDrift      : Nat
  forReflection : Nat
deriving DecidableEq, Repr

/-- The condition table: the occupied slots in creation order, the tag counter, the severity map (R140, R142, R143). -/
structure CondTable where
  conditions : List Condition
  tagCounter : Nat
  severity   : SeverityMap
deriving DecidableEq, Repr

/-- The INHIBIT input, and the straps as sampled at the last reset (R196). -/
structure Inputs where
  inhibit : Bool
  straps  : Straps
deriving DecidableEq, Repr

/-! ### The state -/

/-- The state of the block. -/
structure State where
  link       : Link
  directory  : List Entry
  profiles   : Octet Profile
  timeBase   : TimeBase
  sched      : Scheduler
  banks      : Pair Bank
  thresholds : Thresholds
  channels   : Pair Channel
  buffers    : Quad (Option Holding)
  engine     : Engine
  table      : CondTable
  inputs     : Inputs
  /-- Elapsed time in ns since the last reset, against which due times are formed (log entry 1). -/
  now        : Nat
  /-- How many free values have been drawn: the model's own field (log entries 7 and 27). -/
  draws      : Nat
  /-- The commands that wait, first in, first out. -/
  pending    : List Instr
deriving DecidableEq, Repr

/-! ### Reset values -/

/-- The default profiles (R46). -/
def defaultProfiles : Octet Profile :=
  { x0 := ⟨0, 1, 4096, 12, 8, 1000, 1000⟩
    x1 := ⟨2, 4, 8192, 13, 12, 1000, 1000⟩
    x2 := ⟨3, 8, 8192, 14, 16, 1000, 1000⟩
    x3 := ⟨4, 16, 8192, 15, 16, 1500, 1000⟩
    x4 := ⟨5, 32, 8192, 16, 24, 1500, 1500⟩
    x5 := ⟨3, 16, 16384, 15, 16, 1000, 1000⟩
    x6 := ⟨4, 64, 4096, 16, 16, 1500, 1500⟩
    x7 := ⟨2, 2, 2048, 10, 8, 800, 800⟩ }

/-- The class settings and credits after reset (R173). -/
def defaultClasses : Quad ClassSetting :=
  { x0 := ⟨0, false, 0⟩, x1 := ⟨8, true, 8⟩, x2 := ⟨4, true, 4⟩, x3 := ⟨1, true, 1⟩ }

/-- The severity map after reset (R143). -/
def defaultSeverity : SeverityMap :=
  { forBreak := 3, forBend := 2, forLoss := 1, forDrift := 1, forReflection := 0 }

/-- A present bank after reset: driven to position 0, its settle completion due 30 ms after the reset (R77). -/
def presentBankAtReset : Bank :=
  { service := .inService, holder := none, commanded := 0, motion := .moving 30000000, sensed := none,
    coil := ⟨0, 14680⟩, mark := false }

/-- Bank B while it is absent (R61). The rule gives no coil group index: 14680 as for a present bank (DESIGN CHOICE, log
entry 11). -/
def absentBank : Bank :=
  { service := .inService, holder := none, commanded := 0, motion := .still, sensed := some 0,
    coil := ⟨0, 14680⟩, mark := false }

/-- A channel after reset: INHIBITED if the INHIBIT input is asserted at the reset, IDLE otherwise (R98). -/
def channelAtReset (inhibit : Bool) : Channel :=
  { activity := if inhibit then .inhibited else .idle, accumulator := [], trim := 0, degraded := false, mark := false }

/-- The link after reset (R184). -/
def linkAtReset : Link :=
  { state := .readyIdle, requestBuffer := [], response := none, discardNote := false,
    enables := { span := false, condition := false, unit := false }, dataOut := [] }

/-- The time base after reset (R160). -/
def timeBaseAtReset : TimeBase :=
  { timeOfDay := 0, openTime := 0, closeTime := 0, windowOpen := false, windowNumber := 0, nextAdvance := 1000000000 }

/-- The scheduler after reset (R182). -/
def schedulerAtReset : Scheduler :=
  { classQueues := ⟨[], [], [], []⟩, demandQueue := [], verifyPlaces := ⟨false, false⟩, classes := defaultClasses,
    dispatchCalled := false }

/-- The part after power-on or the RESET pin, with the straps and the INHIBIT level that stand at it: every block at its
reset values (R26, R43, R46, R77, R98, R99, R159, R160, R182, R184). -/
def State.afterReset (straps : Straps) (inhibit : Bool) : State :=
  { link := linkAtReset
    directory := []
    profiles := defaultProfiles
    timeBase := timeBaseAtReset
    sched := schedulerAtReset
    banks := { a := presentBankAtReset, b := if straps.bankB then presentBankAtReset else absentBank }
    thresholds := { overload := 20000, live := 9000 }
    channels := { a := channelAtReset inhibit, b := channelAtReset inhibit }
    buffers := ⟨none, none, none, none⟩
    engine := { queue := [], current := none }
    table := { conditions := [], tagCounter := 1, severity := defaultSeverity }
    inputs := { inhibit := inhibit, straps := straps }
    now := 0
    draws := 0
    pending := [] }

/-- The machine right after reset, with the input levels that log entry 10 names. -/
def State.reset : State := State.afterReset Config.resetStraps Config.resetInhibit

end Sys2Proof.Machine
end

