-- ==== Sys2Proof/Machine/Operands.lean ====
section
/-! DEFINITION. The arithmetic of R1 and the values that requests and jobs carry: clamping, distances, levels, the
derived values of a profile, and the reading of coded fields. -/

namespace Sys2Proof.Machine

/-! ### Arithmetic (R1) -/

/-- A division that rounds: the nearest integer, an exact half to the larger (R1). -/
def roundDiv (a b : Nat) : Nat := (2 * a + b) / (2 * b)

/-- A division rounded up to the next whole number (R50, R108). -/
def ceilDiv (a b : Nat) : Nat := (a + b - 1) / b

/-- A value clamped to `lo..hi` (R1). -/
def clamp (lo hi x : Nat) : Nat := if x < lo then lo else if hi < x then hi else x

/-- A signed value clamped to `lo..hi` (R1). -/
def clampInt (lo hi x : Int) : Int := if x < lo then lo else if hi < x then hi else x

/-- A counter of 0 to 65535 that wraps (R1): window numbers, revisions, the tag counter. -/
def wrapSucc (n : Nat) : Nat := (n + 1) % 65536

/-- A counter that saturates at `top` (R1). -/
def satSucc (top n : Nat) : Nat := if n < top then n + 1 else top

/-! ### Sorting

Lists that the spec orders by a key are built by inserting each entry before the first entry it does not follow, so
entries of equal key keep the order they came in. -/

/-- `x` put before the first entry that it is `le` to. -/
def insertBy {α : Type} (le : α → α → Bool) (x : α) : List α → List α
  | [] => [x]
  | y :: ys => if le x y then x :: y :: ys else y :: insertBy le x ys

/-- The list ordered by `le`, entries of equal key in the order they stood. -/
def sortBy {α : Type} (le : α → α → Bool) (l : List α) : List α := l.foldr (insertBy le) []

/-! ### Distances (R49, R51) -/

/-- The greatest distance the part gives, in cm (R51). -/
def maxDistance : Nat := 12000000

/-- A count of bins as a one-way distance in cm (R49). -/
def binsToCm (groupIndex bins : Nat) : Nat := roundDiv (bins * 749481) (2 * groupIndex)

/-- A signed count of bins as a distance; a negative count gives 0 (R49). -/
def signedBinsToCm (groupIndex : Nat) (bins : Int) : Nat := binsToCm groupIndex bins.toNat

/-- The range distance: the range converted, and at most 12,000,000 cm (R51). -/
def rangeDistance (groupIndex rangeBins : Nat) : Nat := min (binsToCm groupIndex rangeBins) maxDistance

/-! ### Levels (R69, R86) -/

/-- Whether 5000 times the logarithm of the mean `m` is at least `level` less one half, in whole numbers: `10` to the
power `2 level - 1` is at most `m` to the power 10000. -/
def levelReached (power level : Nat) : Bool := 10 ^ (2 * level - 1) ≤ power

/-- The level of a mean: 5000 times its logarithm to base 10, rounded, and 0 for a mean of 0 (R86). The level is the
greatest number that is reached; its binary digits are settled from the top, which makes the rounding exact. -/
def levelOf (mean : Nat) : Nat :=
  if mean = 0 then 0
  else
    let power := mean ^ 10000
    [14, 13, 12, 11, 10, 9, 8, 7, 6, 5, 4, 3, 2, 1, 0].foldl
      (fun found digit => if levelReached power (found + 2 ^ digit) then found + 2 ^ digit else found) 0

/-! ### Profiles (R45, R48, R50, R52) -/

/-- The pulse bins that a pulse code names (R45). -/
def pulseBins (code : Nat) : Nat :=
  match code with
  | 0 => 4
  | 1 => 12
  | 2 => 40
  | 3 => 120
  | 4 => 400
  | _ => 1200

/-- The guard length of a profile (R50). -/
def guardLength (pulse spacing : Nat) : Nat := ceilDiv pulse spacing + 2

/-- The shot period in ns: the range times 2.5 ns, plus 2000 ns (R52). -/
def shotPeriodNs (rangeBins : Nat) : Nat := rangeBins * 5 / 2 + 2000

/-- The snapshot of a profile that a job takes at dispatch (R48). -/
def snapshotOf (number : Fin 8) (p : Profile) : Snapshot :=
  { number := number
    profile := p
    pulseBins := pulseBins p.pulseCode
    shots := 2 ^ p.shotExponent
    guard := guardLength (pulseBins p.pulseCode) p.spacing
    rangeBins := p.pointCount * p.spacing
    shotPeriod := shotPeriodNs (p.pointCount * p.spacing) }

/-! ### Coded fields of requests (R200) -/

/-- The bank that a bank byte names (R200). -/
def bankOfByte (b : Byte) : Option Letter :=
  if b.toNat = 0 then some .A else if b.toNat = 1 then some .B else none

/-- A yes/no, on/off byte (R200). -/
def boolOfByte (b : Byte) : Option Bool :=
  if b.toNat = 0 then some false else if b.toNat = 1 then some true else none

/-- The landmark kind that a byte names (R200). -/
def landmarkKindOfNat (n : Nat) : Option LandmarkKind :=
  match n with
  | 0 => some .connector
  | 1 => some .splice
  | 2 => some .splitter
  | 3 => some .farEnd
  | _ => none

/-- A number as one of the first `n` numbers (profile numbers, classes). -/
def finOfNat (n k : Nat) : Option (Fin n) := if h : k < n then some ⟨k, h⟩ else none

/-- What a position sense reports, as a position or NONE. -/
def senseValue (s : Sense) : Option Nat := s.map Fin.val

/-- What the position senses of banks A and B report. -/
def senseValues (senseA senseB : Sense) : Pair (Option Nat) := { a := senseValue senseA, b := senseValue senseB }

/-- The clamped fields of a SPAN_PUT as carried (R201). -/
def SpanClamp.carried (b : SpanFields) : ClampedFields :=
  { groupIndex := b.groupIndex.toNat
    launchOffset := b.launchOffset.toNat
    attenuation := b.attenuation.toNat
    lossThreshold := b.lossThreshold.toNat
    driftThreshold := b.driftThreshold.toNat
    bendMargin := b.bendMargin.toNat
    matchTolerance := b.matchTolerance.toNat
    confirmCount := b.confirmCount.toNat
    clearCount := b.clearCount.toNat }

/-- The clamped fields, each replaced by the nearer bound of its range in R2 (R7). -/
def SpanClamp.clamped (f : ClampedFields) : ClampedFields :=
  { groupIndex := clamp 14000 15000 f.groupIndex
    launchOffset := clamp 0 4095 f.launchOffset
    attenuation := clamp 100 600 f.attenuation
    lossThreshold := clamp 50 3000 f.lossThreshold
    driftThreshold := clamp 50 3000 f.driftThreshold
    bendMargin := clamp 100 3000 f.bendMargin
    matchTolerance := clamp 100 5000 f.matchTolerance
    confirmCount := clamp 1 7 f.confirmCount
    clearCount := clamp 1 7 f.clearCount }

/-- OK, or CLAMPED where a value was replaced (R190). -/
def takenStatus (replaced : Bool) : Status := if replaced then .clamped else .ok

end Sys2Proof.Machine
end

