-- ==== Sys2Proof/Machine/Flags.lean ====
section
/-! DEFINITION. Reading the records of the state, and the flags computed from them: change marks and ATTN (R191), READY
(R184), the laser drive (R91), and the fields that follow a strap (R61, R79). -/

namespace Sys2Proof.Machine

/-! ### The span directory -/

/-- The span an entry holds, if it is no vacated report. -/
def Entry.span? : Entry → Option SpanRecord
  | .span r => some r
  | .vacated _ => none

/-- The identifier of an entry. -/
def Entry.id : Entry → Nat
  | .span r => r.id
  | .vacated i => i

/-- Whether an entry's change mark is set; a vacated report's always is (R3). -/
def Entry.marked : Entry → Bool
  | .span r => r.mark
  | .vacated _ => true

/-- The spans in the directory, in its order (R3). -/
def State.spans (s : State) : List SpanRecord := s.directory.filterMap Entry.span?

/-- The span with this identifier. Vacated reports are not seen (R3). -/
def State.findSpan (s : State) (id : Nat) : Option SpanRecord := s.spans.find? (fun r => r.id == id)

/-- The port map: the span bound to a bank and position (R4). -/
def State.boundTo (s : State) (bank : Letter) (position : Nat) : Option SpanRecord :=
  s.spans.find? (fun r => r.bank == bank && r.position == position)

/-- The landmark pool's free count (R30). -/
def State.poolFree (s : State) : Nat := 2048 - (s.spans.map (fun r => r.landmarks.length)).sum

/-- The list holds a FAR_END landmark (R15). -/
def hasFarEnd (l : List Landmark) : Bool := l.any (fun m => m.kind == .farEnd)

/-! ### Fields that follow a strap -/

/-- Whether a bank is present: bank A always, bank B by its strap (R61). -/
def State.present (s : State) : Letter → Bool
  | .A => true
  | .B => s.inputs.straps.bankB

/-- Whether a channel's 1310 nm laser is fitted (R79). -/
def State.fitted (s : State) : Letter → Bool
  | .A => s.inputs.straps.dualA
  | .B => s.inputs.straps.dualB

/-! ### Channels -/

/-- The job at a channel. -/
def Activity.flight? : Activity → Option Flight
  | .idle => none
  | .inhibited => none
  | .busy _ f => some f

/-- The channel is IDLE. -/
def Activity.isIdle : Activity → Bool
  | .idle => true
  | .inhibited => false
  | .busy _ _ => false

/-- The channel is INHIBITED. -/
def Activity.isInhibited : Activity → Bool
  | .idle => false
  | .inhibited => true
  | .busy _ _ => false

/-- The stage is one that fires a laser. -/
def Stage.fires : Stage → Bool
  | .switching => false
  | .guard _ => false
  | .firing1625 _ => true
  | .firing1310 _ => true

/-- A laser of the channel fires: the channel is in a firing stage and the INHIBIT input does not gate the drive (R91). -/
def State.laserFires (s : State) (ch : Letter) : Bool :=
  !s.inputs.inhibit &&
    match (s.channels.get ch).activity with
    | .busy stage _ => stage.fires
    | .idle => false
    | .inhibited => false

/-- What tells a dispatched job's record from another. -/
def Work.id : Work → JobId
  | .test _ span _ => .span span
  | .verify ch _ => .verify ch

/-- What tells a queued job from another. -/
def Job.id : Job → JobId
  | .test _ span => .span span
  | .verify ch => .verify ch

/-- The dispatched job is SCHEDULED. -/
def Work.isScheduled : Work → Bool
  | .test (.scheduled _) _ _ => true
  | .test .demand _ _ => false
  | .test .learn _ _ => false
  | .verify _ _ => false

/-- The dispatched jobs: at the channels, in the analysis queue, in the engine. -/
def State.flights (s : State) : List Flight :=
  s.channels.a.activity.flight?.toList ++ s.channels.b.activity.flight?.toList ++ s.engine.queue ++
    (s.engine.current.map Analysis.flight).toList

/-! ### Conditions -/

/-- The open states of a condition (R139). -/
def CondState.isOpen : CondState → Bool
  | .suspect => true
  | .confirmed => true
  | .clearing => true
  | .retired => false

/-- The severity of a kind (R143). -/
def SeverityMap.of (m : SeverityMap) : FaultKind → Nat
  | .break_ => m.forBreak
  | .bend => m.forBend
  | .loss => m.forLoss
  | .drift => m.forDrift
  | .reflection => m.forReflection

/-- The condition with this tag. -/
def State.findCondition (s : State) (tag : Nat) : Option Condition :=
  s.table.conditions.find? (fun c => c.tag == tag)

/-! ### Change marks and ATTN (R191) -/

/-- An item that carries a change mark (R191), as it stands. -/
inductive Item where
  | span (entry : Entry)
  | condition (c : Condition)
  | channel (name : Letter)
  | bank (name : Letter)
deriving DecidableEq, Repr

/-- The marked spans and vacated reports, in ascending identifier, which is the directory's order (R193). -/
def State.markedSpans (s : State) : List Item := (s.directory.filter Entry.marked).map Item.span

/-- The marked conditions in ascending tag (R193). -/
def State.markedConditions (s : State) : List Item :=
  (sortBy (fun c d => c.tag ≤ d.tag) (s.table.conditions.filter Condition.mark)).map Item.condition

/-- The marked units in the order channel A, channel B, bank A, bank B (R193). -/
def State.markedUnits (s : State) : List Item :=
  (if s.channels.a.mark then [Item.channel .A] else []) ++ (if s.channels.b.mark then [Item.channel .B] else []) ++
    (if s.banks.a.mark then [Item.bank .A] else []) ++ (if s.banks.b.mark then [Item.bank .B] else [])

/-- The marked items of the enabled categories in the order of R193. -/
def State.enabledItems (s : State) : List Item :=
  (if s.link.enables.span then s.markedSpans else []) ++
    (if s.link.enables.condition then s.markedConditions else []) ++
    (if s.link.enables.unit then s.markedUnits else [])

/-- ATTN: some enabled category has a set change mark (R191). -/
def State.attn (s : State) : Bool :=
  (s.link.enables.span && s.directory.any Entry.marked) ||
    (s.link.enables.condition && s.table.conditions.any Condition.mark) ||
    (s.link.enables.unit && (s.channels.a.mark || s.channels.b.mark || s.banks.a.mark || s.banks.b.mark))

/-- READY is low in WORKING and high in every other link state (R184). -/
def State.ready (s : State) : Bool := s.link.state != .working

end Sys2Proof.Machine
end

