-- ==== Sys2Proof/Machine/Layout.lean ====
section
/-! DEFINITION. The byte layouts of the record bodies that the host sees (chapter 11): the span record, landmark entries,
the condition record, the profile record, the time base, the unit bodies, the change entries and the status summary. -/

namespace Sys2Proof.Machine

/-- A set or clear, yes or no byte (R200). -/
def boolByte (b : Bool) : Byte := if b then 1 else 0

/-- A flags byte from its low four bits, bit 0 first. -/
def flagsByte (b0 b1 b2 b3 : Bool) : Byte :=
  byte (b0.toNat + 2 * b1.toNat + 4 * b2.toNat + 8 * b3.toNat)

/-- Bit `i` of a flags byte of a request. -/
def flagBit (b : Byte) (i : Nat) : Bool := b.toNat / 2 ^ i % 2 == 1

/-- The code of a bank, and of a channel in a unit name (R200). -/
def letterCode : Letter → Nat
  | .A => 0
  | .B => 1

/-- The code of a span state (R200); EMPTY has code 0. -/
def spanStateCode : SpanState → Nat
  | .draft => 1
  | .learning => 2
  | .active => 3
  | .held => 4
  | .retiring => 5

/-- The code of an outcome (R200). -/
def outcomeCode : LastOutcome → Nat
  | .none_ => 0
  | .clean => 1
  | .findings => 2
  | .stale => 3
  | .noEnd => 4
  | .bankFault => 5
  | .liveOverload => 6
  | .cancelled => 7

/-- The code of a landmark kind (R200). -/
def landmarkKindCode : LandmarkKind → Nat
  | .connector => 0
  | .splice => 1
  | .splitter => 2
  | .farEnd => 3

/-- The code of a condition kind (R200). -/
def faultKindCode : FaultKind → Nat
  | .break_ => 0
  | .bend => 1
  | .loss => 2
  | .drift => 3
  | .reflection => 4

/-- The code of a condition state (R200). -/
def condStateCode : CondState → Nat
  | .suspect => 0
  | .confirmed => 1
  | .clearing => 2
  | .retired => 3

/-- The last end distance, with 0xFFFFFFFF where it is absent (R200). -/
def endDistanceBytes : Option Nat → List Byte
  | some d => be32 d
  | none => [0xFF, 0xFF, 0xFF, 0xFF]

/-- The span flags byte (R201, offset 36). -/
def spanFlagsByte (r : SpanRecord) : Byte := flagsByte r.missed r.live r.overflow r.mark

/-- The clamped fields as the record shows them (R201, offsets 8 to 23 of the request). -/
def clampedFieldBytes (f : ClampedFields) : List Byte :=
  be16 f.groupIndex ++ be16 f.launchOffset ++ be16 f.attenuation ++ be16 f.lossThreshold ++ be16 f.driftThreshold ++
    be16 f.bendMargin ++ be16 f.matchTolerance ++ [byte f.confirmCount, byte f.clearCount]

/-- The span record, 38 bytes (R201). -/
def spanRecordBytes (r : SpanRecord) : List Byte :=
  be16 r.id ++ [byte (spanStateCode r.state), byte (spanStateCode r.resume)] ++
    [byte (letterCode r.bank), byte r.position, byte r.profile.val, byte r.cls.val, byte r.interval, byte r.phase] ++
    clampedFieldBytes r.clamped ++ be16 r.revision ++ [byte r.landmarks.length, byte (outcomeCode r.lastOutcome)] ++
    be16 r.lastWindow ++ endDistanceBytes r.lastEnd ++ [spanFlagsByte r, byte r.dropped]

/-- The span-state response: the identifier and the state after the request (R201). -/
def spanStateBytes (id stateCode : Nat) : List Byte := be16 id ++ [byte stateCode]

/-- The list-state response: the identifier, the landmark count, the revision (R201). -/
def listStateBytes (r : SpanRecord) : List Byte := be16 r.id ++ [byte r.landmarks.length] ++ be16 r.revision

/-- A landmark entry, 9 bytes (R201). -/
def landmarkBytes (m : Landmark) : List Byte :=
  be32 m.distance ++ [byte (landmarkKindCode m.kind)] ++ be16 m.loss ++ be16 m.height

/-- The first 19 bytes of the condition record (R202). -/
def conditionBytes (c : Condition) : List Byte :=
  be16 c.tag ++ be16 c.span ++ [byte (faultKindCode c.kind), byte (condStateCode c.state)] ++ be32 c.distance ++
    be16 c.magnitude ++ [byte c.hits, byte c.misses] ++ be16 c.firstSeen ++ be16 c.lastSeen ++
    [flagsByte c.single c.degraded c.acknowledged c.mark]

/-- The condition record, 20 bytes: the severity of the kind comes last (R202). -/
def conditionRecordBytes (m : SeverityMap) (c : Condition) : List Byte := conditionBytes c ++ [byte (m.of c.kind)]

/-- The severity map in the order of the condition-kind codes (R202). -/
def severityBytes (m : SeverityMap) : List Byte :=
  [byte m.forBreak, byte m.forBend, byte m.forLoss, byte m.forDrift, byte m.forReflection]

/-- The profile record, 11 bytes (R202). -/
def profileBytes (number : Nat) (p : Profile) : List Byte :=
  [byte number, byte p.pulseCode, byte p.spacing] ++ be16 p.pointCount ++ [byte p.shotExponent, byte p.window] ++
    be16 p.reflectiveThreshold ++ be16 p.endMargin

/-- The time base body, 15 bytes (R202). -/
def timeBaseBytes (t : TimeBase) : List Byte :=
  be32 t.timeOfDay ++ be32 t.openTime ++ be32 t.closeTime ++ [boolByte t.windowOpen] ++ be16 t.windowNumber

/-- The CLASS_SET response, 4 bytes (R202). -/
def classBytes (number : Nat) (c : ClassSetting) : List Byte :=
  [byte number, byte c.weight, boolByte c.preemptible, byte c.credit]

/-- The guard thresholds, 4 bytes (R202). -/
def thresholdBytes (t : Thresholds) : List Byte := be16 t.overload ++ be16 t.live

/-- The COIL_SET response, 7 bytes (R202). -/
def coilBytes (bank : Letter) (c : Coil) : List Byte := [byte (letterCode bank)] ++ be32 c.length ++ be16 c.groupIndex

/-- The attention enables, 3 bytes (R202). -/
def enableBytes (e : Enables) : List Byte := [boolByte e.span, boolByte e.condition, boolByte e.unit]

/-- The code of a channel state (R200). -/
def activityCode : Activity → Nat
  | .idle => 0
  | .busy .switching _ => 1
  | .busy (.guard _) _ => 2
  | .busy (.firing1625 _) _ => 3
  | .busy (.firing1310 _) _ => 4
  | .inhibited => 5

/-- The code of a job's kind in a unit entry (R200). -/
def workKindCode : Work → Nat
  | .test (.scheduled _) _ _ => 1
  | .test .demand _ _ => 2
  | .test .learn _ _ => 3
  | .verify _ _ => 4

/-- The span identifier of a job in a unit entry; 0 for a VERIFY job (R97, R200). -/
def workSpan : Work → Nat
  | .test _ span _ => span
  | .verify _ _ => 0

/-- The code of a plan (R200). -/
def planCode : Plan → Nat
  | .dual => 1
  | .single => 2

/-- Job kind, span identifier and plan in a channel's unit entry (R97, R203). -/
def channelJobBytes : Option Flight → List Byte
  | none => [byte 0] ++ be16 0 ++ [byte 0]
  | some f => [byte (workKindCode f.work)] ++ be16 (workSpan f.work) ++ [byte (planCode f.plan)]

/-- A channel unit body, 9 bytes (R203). The trim is one byte in two's complement (R200). -/
def channelUnitBytes (s : State) (name : Letter) : List Byte :=
  let c := s.channels.get name
  [byte (letterCode name), byte (activityCode c.activity), boolByte (s.fitted name)] ++
    channelJobBytes c.activity.flight? ++ [BitVec.ofInt 8 c.trim, boolByte c.degraded]

/-- The code of a bank's holder (R200). -/
def holderCode : Option Letter → Nat
  | none => 0
  | some .A => 1
  | some .B => 2

/-- The code of a bank's service state (R200). -/
def serviceCode : Service → Nat
  | .inService => 0
  | .outOfService => 1

/-- The code of a bank's motion (R200). -/
def motionCode : Motion → Nat
  | .still => 0
  | .moving _ => 1

/-- A sensed position, with 0xFF for NONE (R200). -/
def sensedByte : Option Nat → Byte
  | none => 0xFF
  | some p => byte p

/-- A bank unit body, 13 bytes (R203). -/
def bankUnitBytes (s : State) (name : Letter) : List Byte :=
  let b := s.banks.get name
  [byte (2 + letterCode name), boolByte (s.present name), byte (serviceCode b.service), byte (holderCode b.holder),
    byte b.commanded, byte (motionCode b.motion), sensedByte b.sensed] ++ be32 b.coil.length ++ be16 b.coil.groupIndex

/-- The change entry of a span or a vacated report, 16 bytes (R203). -/
def spanEntryBytes : Entry → List Byte
  | .span r =>
    [byte 1] ++ be16 r.id ++ [byte (spanStateCode r.state)] ++ be16 r.revision ++
      [byte r.landmarks.length, byte (outcomeCode r.lastOutcome)] ++ be16 r.lastWindow ++ endDistanceBytes r.lastEnd ++
      [spanFlagsByte r, byte r.dropped]
  | .vacated id =>
    [byte 1] ++ be16 id ++ [byte 0] ++ be16 0 ++ [byte 0, byte 0] ++ be16 0 ++ endDistanceBytes none ++
      [0x08, byte 0]

/-- The change entry of a marked item (R203). -/
def itemBytes (s : State) : Item → List Byte
  | .span e => spanEntryBytes e
  | .condition c => [byte 2] ++ conditionBytes c
  | .channel l => [byte 3] ++ channelUnitBytes s l
  | .bank l => [byte 3] ++ bankUnitBytes s l

/-- The number of free trace buffers (R196). -/
def State.freeBufferCount (s : State) : Nat := (s.buffers.toList.filter Option.isNone).length

/-- The status summary, 86 bytes (R203). -/
def statusSummaryBytes (s : State) : List Byte :=
  [byte s.spans.length] ++ be16 s.poolFree ++
    [byte s.freeBufferCount, boolByte s.engine.current.isSome, byte s.engine.queue.length] ++
    (s.sched.classQueues.map (fun q => byte q.length)).toList ++
    [byte s.sched.demandQueue.length, flagsByte s.sched.verifyPlaces.a s.sched.verifyPlaces.b false false] ++
    (s.sched.classes.map (fun c => byte c.credit)).toList ++ [byte s.table.conditions.length] ++
    timeBaseBytes s.timeBase ++ thresholdBytes s.thresholds ++
    channelUnitBytes s .A ++ channelUnitBytes s .B ++ bankUnitBytes s .A ++ bankUnitBytes s .B ++
    [flagsByte s.inputs.inhibit s.inputs.straps.bankB s.inputs.straps.dualA s.inputs.straps.dualB,
      flagsByte s.link.enables.span s.link.enables.condition s.link.enables.unit false, boolByte s.attn,
      byte s.markedSpans.length, byte s.markedConditions.length, byte s.markedUnits.length]

/-- The flags byte of a response frame (R198). -/
def Response.flags (r : Response) : Byte := flagsByte r.priorDiscarded r.attnPending false false

/-- The bytes of a response frame: status, flags, body length, body (R198). -/
def Response.frame (r : Response) : List Byte := [r.status.code, r.flags] ++ be16 r.body.length ++ r.body

end Sys2Proof.Machine
end

