-- ==== Sys2Proof/Machine/Ops.lean ====
section
/-! DEFINITION. The operations that the meanings share: writing span records, trace buffers, banks and channels, ending a
job, making a span EMPTY, taking the head of the analysis queue, and the exchange of a request and its response. -/

namespace Sys2Proof.Machine

/-! ### Writing one record -/

/-- The bank's record replaced. -/
def State.setBank (s : State) (l : Letter) (b : Bank) : State := { s with banks := s.banks.set l b }

/-- The channel's record replaced. -/
def State.setChannel (s : State) (l : Letter) (c : Channel) : State := { s with channels := s.channels.set l c }

/-- The channel's state and job replaced. -/
def State.setActivity (s : State) (l : Letter) (a : Activity) : State :=
  s.setChannel l { s.channels.get l with activity := a }

/-- A dispatch pass is called for (R174). -/
def State.callDispatch (s : State) : State := { s with sched := { s.sched with dispatchCalled := true } }

/-- The model's clock brought up to a due time that has come (log entry 1). -/
def State.reach (s : State) (due : Nat) : State := { s with now := max s.now due }

/-! ### Span records -/

/-- `f` applied to the record of the span with this identifier; vacated reports are left. -/
def Entry.modify (id : Nat) (f : SpanRecord → SpanRecord) : Entry → Entry
  | .span r => if r.id = id then .span (f r) else .span r
  | .vacated i => .vacated i

/-- `f` applied to the span's record. -/
def State.modifySpan (s : State) (id : Nat) (f : SpanRecord → SpanRecord) : State :=
  { s with directory := s.directory.map (Entry.modify id f) }

/-- MISSED set, together with the change mark (R22). -/
def SpanRecord.miss (r : SpanRecord) : SpanRecord := { r with missed := true, mark := true }

/-- LIVE set or cleared, together with the change mark (R23). -/
def SpanRecord.setLive (v : Bool) (r : SpanRecord) : SpanRecord := { r with live := v, mark := true }

/-- A finding dropped: the count saturates at 255, OVERFLOW and the change mark are set (R24, R151). -/
def SpanRecord.dropFinding (r : SpanRecord) : SpanRecord :=
  { r with dropped := satSucc 255 r.dropped, overflow := true, mark := true }

/-- The outcome fields written: the outcome, the current window number, the end distance where the ending carries one,
the change mark (R21). CLEAN and FINDINGS clear MISSED (R22). -/
def SpanRecord.withOutcome (o : LastOutcome) (window : Nat) (endDistance : Option Nat) (r : SpanRecord) : SpanRecord :=
  { r with
    lastOutcome := o
    lastWindow := window
    lastEnd := if endDistance.isSome then endDistance else r.lastEnd
    missed := if o = .clean ∨ o = .findings then false else r.missed
    mark := true }

/-- A span in LEARNING returned to its resume state, with its change mark (R17). -/
def SpanRecord.endLearn (r : SpanRecord) : SpanRecord :=
  if r.state = .learning then { r with state := r.resume, mark := true } else r

/-- The span's outcome fields written (R21). -/
def State.writeOutcome (s : State) (id : Nat) (o : LastOutcome) (endDistance : Option Nat) : State :=
  s.modifySpan id (SpanRecord.withOutcome o s.timeBase.windowNumber endDistance)

/-- The ending of a job with an outcome but without adoption: the outcome is written to the job's span, and a LEARN job's
span returns to its resume state (R17, R21). A VERIFY job writes no span. -/
def State.endWithOutcome (s : State) (w : Work) (o : LastOutcome) : State :=
  match w with
  | .verify _ _ => s
  | .test .learn id _ => (s.writeOutcome id o none).modifySpan id SpanRecord.endLearn
  | .test .demand id _ => s.writeOutcome id o none
  | .test (.scheduled _) id _ => s.writeOutcome id o none

/-! ### Conditions of a span -/

/-- An open condition of the span goes to RETIRED with its change mark set; its other fields stay (R152). -/
def Condition.retireFor (id : Nat) (c : Condition) : Condition :=
  if c.span = id ∧ c.state.isOpen = true then { c with state := .retired, mark := true } else c

/-- Every open condition of the span goes to RETIRED (R152). -/
def State.retireConditions (s : State) (id : Nat) : State :=
  { s with table := { s.table with conditions := s.table.conditions.map (Condition.retireFor id) } }

/-- The entry of a span that becomes EMPTY: a vacated report in the span's place (R20). -/
def Entry.vacate (id : Nat) : Entry → Entry
  | .span r => if r.id = id then .vacated id else .span r
  | .vacated i => .vacated i

/-- The span becomes EMPTY: its landmarks and its port are freed with its record, its open conditions are retired, and
its entry becomes a vacated report (R20). -/
def State.becomeEmpty (s : State) (id : Nat) : State :=
  let s1 := s.retireConditions id
  { s1 with directory := s1.directory.map (Entry.vacate id) }

/-! ### Trace buffers (R82, R83) -/

/-- The numbers of the free buffers, lowest first. -/
def State.freeBuffers (s : State) : List (Fin 4) := ([0, 1, 2, 3] : List (Fin 4)).filter (fun i => (s.buffers.get i).isNone)

/-- The buffer, freed if this job holds it. -/
def freeIfHeldBy (j : JobId) : Option Holding → Option Holding
  | none => none
  | some h => if h.holder = j then none else some h

/-- The buffer, freed if this job holds it for this wavelength. -/
def freeIfHeldAs (j : JobId) (role : Role) : Option Holding → Option Holding
  | none => none
  | some h => if h.holder = j ∧ h.role = role then none else some h

/-- Every buffer the job holds is freed, and offered to dispatch (R83). -/
def State.freeBuffersOf (s : State) (j : JobId) : State :=
  ({ s with buffers := s.buffers.map (freeIfHeldBy j) } : State).callDispatch

/-- The job's 1310 nm buffer is freed, and offered to dispatch (R71, R88, R89). -/
def State.free1310 (s : State) (j : JobId) : State :=
  ({ s with buffers := s.buffers.map (freeIfHeldAs j .nm1310) } : State).callDispatch

/-- The buffers of a plan are taken: the lowest-numbered free buffer for 1625 nm, and for a DUAL plan the next free one
for 1310 nm, both EMPTY (R82). -/
def State.takeBuffers (s : State) (j : JobId) (plan : Plan) : State :=
  match plan, s.freeBuffers with
  | .single, i :: _ => { s with buffers := s.buffers.set i (some ⟨j, .nm1625, none⟩) }
  | .dual, i :: k :: _ =>
    { s with buffers := (s.buffers.set i (some ⟨j, .nm1625, none⟩)).set k (some ⟨j, .nm1310, none⟩) }
  | .single, [] => s
  | .dual, _ => s

/-- The buffer, FILLED if the job holds it for this wavelength. -/
def fillIfHeldAs (j : JobId) (role : Role) (t : Trace) : Option Holding → Option Holding
  | none => none
  | some h => if h.holder = j ∧ h.role = role then some { h with trace := some t } else some h

/-- The job's buffer for this wavelength becomes FILLED (R86). -/
def State.fillBuffer (s : State) (j : JobId) (role : Role) (t : Trace) : State :=
  { s with buffers := s.buffers.map (fillIfHeldAs j role t) }

/-- The trace in the job's buffer for this wavelength. -/
def State.traceOf (s : State) (j : JobId) (role : Role) : Option Trace :=
  s.buffers.toList.findSome? fun b =>
    match b with
    | none => none
    | some h => if h.holder = j ∧ h.role = role then h.trace else none

/-! ### Banks (R63 to R66) -/

/-- The time of a settle that moves the switch, in ns (R60). -/
def settleNs : Nat := 30000000

/-- The time of a guard measurement, in ns (R69). -/
def guardNs : Nat := 2000000

/-- The bank, released if this channel holds it. -/
def Bank.releasedBy (ch : Letter) (b : Bank) : Bank := if b.holder = some ch then { b with holder := none } else b

/-- The bank that the channel holds is released: the holder is cleared, and the switch's motion, position and service
state are left; the bank is offered to dispatch (R66). -/
def State.releaseBank (s : State) (ch : Letter) : State :=
  ({ s with banks := s.banks.map (Bank.releasedBy ch) } : State).callDispatch

/-! ### The channel gives up its job -/

/-- What the channel rests in: INHIBITED while INHIBIT is asserted, IDLE otherwise (R90). -/
def State.restActivity (s : State) : Activity := if s.inputs.inhibit then .inhibited else .idle

/-- The channel's job is gone: every buffer the job holds is freed, its bank is released, the accumulator is cleared, and
the channel goes to `rest`; all of it is offered to dispatch (R90). -/
def State.dropFlight (s : State) (ch : Letter) (f : Flight) (rest : Activity) : State :=
  let s1 := (s.freeBuffersOf f.work.id).releaseBank ch
  s1.setChannel ch { s1.channels.get ch with activity := rest, accumulator := [] }

/-- The abort of the job at a channel (R90). A channel without a job is left as it is. -/
def State.abortChannel (s : State) (ch : Letter) : State :=
  match (s.channels.get ch).activity with
  | .busy _ f => s.dropFlight ch f s.restActivity
  | .idle => s
  | .inhibited => s

/-! ### Settle completion (R64 to R66) -/

/-- The bank's record at a settle completion: what the sense reported, and STILL. -/
def Bank.settled (b : Bank) (sense : Option Nat) : Bank := { b with sensed := sense, motion := .still }

/-- The bank's record at a settle completion that does not match: out of service, no holder, and its change mark set. -/
def Bank.faulted (b : Bank) (sense : Option Nat) : Bank :=
  { b with sensed := sense, motion := .still, service := .outOfService, holder := none, mark := true }

/-- A settle completion of the bank, with what its position sense reports. On a match the bank is STILL at the sensed
position, and the holder's job goes to GUARD (R64). On a mismatch or NONE the bank goes out of service, and the holder's
job ends with BANK_FAULT (R65). Without a holder no job is touched (R66). -/
def State.settle (s : State) (l : Letter) (sense : Option Nat) : State :=
  let b := s.banks.get l
  let matched := sense = some b.commanded
  match b.holder with
  | none => if matched then s.setBank l (b.settled sense) else s.setBank l (b.faulted sense)
  | some ch =>
    match (s.channels.get ch).activity with
    | .busy _ f =>
      if matched then (s.setBank l (b.settled sense)).setActivity ch (.busy (.guard (s.now + guardNs)) f)
      else ((s.setBank l (b.faulted sense)).endWithOutcome f.work .bankFault).dropFlight ch f .idle
    | .idle => if matched then s.setBank l (b.settled sense) else s.setBank l (b.faulted sense)
    | .inhibited => if matched then s.setBank l (b.settled sense) else s.setBank l (b.faulted sense)

/-- The channel takes the bank at the position its job needs: the four rows of R63. -/
def State.takeBank (s : State) (ch l : Letter) (position : Nat) (sense : Option Nat) : State :=
  let b := s.banks.get l
  match b.motion with
  | .still =>
    if b.commanded = position then (s.setBank l { b with holder := some ch }).settle l sense
    else s.setBank l { b with holder := some ch, commanded := position, motion := .moving (s.now + settleNs) }
  | .moving _ =>
    if b.commanded = position then s.setBank l { b with holder := some ch }
    else s.setBank l { b with holder := some ch, commanded := position, motion := .moving (s.now + settleNs) }

/-! ### The job of a span -/

/-- Where a span's job stands (R169). -/
inductive JobPlace where
  | classQueue (c : Fin 4)
  | demandQueue (learn : Bool)
  | channel (ch : Letter) (flight : Flight)
  | waiting (flight : Flight)
  | analysing (a : Analysis)
deriving DecidableEq, Repr

/-- The job is a test of this span. -/
def Work.tests (id : Nat) : Work → Bool
  | .test _ span _ => span == id
  | .verify _ _ => false

/-- The flight, if it tests this span. -/
def Flight.ifTests (id : Nat) (f : Flight) : Option Flight := if f.work.tests id then some f else none

/-- The class queue that holds the span's SCHEDULED job. -/
def Scheduler.classOf (q : Scheduler) (id : Nat) : Option (Fin 4) :=
  ([0, 1, 2, 3] : List (Fin 4)).find? (fun c => (q.classQueues.get c).contains id)

/-- The span's job, found where it stands; a span has at most one (R168). -/
def State.jobPlace (s : State) (id : Nat) : Option JobPlace :=
  ((s.sched.classOf id).map .classQueue).or <|
  ((s.sched.demandQueue.find? (fun d => d.span == id)).map (fun d => .demandQueue d.learn)).or <|
  ((s.channels.a.activity.flight?.bind (Flight.ifTests id)).map (.channel .A)).or <|
  ((s.channels.b.activity.flight?.bind (Flight.ifTests id)).map (.channel .B)).or <|
  ((s.engine.queue.find? (fun f => f.work.tests id)).map .waiting).or <|
  (s.engine.current.bind (fun a => if a.flight.work.tests id then some (.analysing a) else none))

/-- The span's job has left QUEUED (R6). -/
def JobPlace.pastQueued : JobPlace → Bool
  | .classQueue _ => false
  | .demandQueue _ => false
  | .channel _ _ => true
  | .waiting _ => true
  | .analysing _ => true

/-- The span's job is SCHEDULED. -/
def JobPlace.isScheduled : JobPlace → Bool
  | .classQueue _ => true
  | .demandQueue _ => false
  | .channel _ f => f.work.isScheduled
  | .waiting f => f.work.isScheduled
  | .analysing a => a.flight.work.isScheduled

/-- The span's job is a LEARN job. -/
def Work.isLearn : Work → Bool
  | .test .learn _ _ => true
  | .test .demand _ _ => false
  | .test (.scheduled _) _ _ => false
  | .verify _ _ => false

/-- The span's job is a LEARN job. -/
def JobPlace.isLearn : JobPlace → Bool
  | .classQueue _ => false
  | .demandQueue learn => learn
  | .channel _ f => f.work.isLearn
  | .waiting f => f.work.isLearn
  | .analysing a => a.flight.work.isLearn

/-- The channel's verify job exists, queued or in flight (R164, R168). -/
def State.hasVerifyJob (s : State) (ch : Letter) : Bool :=
  s.sched.verifyPlaces.get ch || s.flights.any (fun f => f.work.id == .verify ch)

/-- The span's job removed from the class queue it waits in. -/
def State.leaveClassQueue (s : State) (id : Nat) : State :=
  { s with sched := { s.sched with
      classQueues := s.sched.classQueues.map (fun q => q.filter (fun i => i != id)) } }

/-- The span's job removed from the demand queue. -/
def State.leaveDemandQueue (s : State) (id : Nat) : State :=
  { s with sched := { s.sched with demandQueue := s.sched.demandQueue.filter (fun d => d.span != id) } }

/-- The span's job put at the head of a class queue. -/
def State.headOfClassQueue (s : State) (c : Fin 4) (id : Nat) : State :=
  ({ s with sched := { s.sched with classQueues := s.sched.classQueues.set c (id :: s.sched.classQueues.get c) } }
    : State).callDispatch

/-- A job put at the tail of the demand queue (R16, R171), which calls for dispatch. -/
def State.tailOfDemandQueue (s : State) (d : DemandJob) : State :=
  ({ s with sched := { s.sched with demandQueue := s.sched.demandQueue ++ [d] } } : State).callDispatch

/-- A job returned to the head of the demand queue, whatever the queue holds (R93). -/
def State.headOfDemandQueue (s : State) (d : DemandJob) : State :=
  ({ s with sched := { s.sched with demandQueue := d :: s.sched.demandQueue } } : State).callDispatch

/-- A SCHEDULED job returned to the head of the class queue of its span's class as that class then stands (R93, R181). -/
def State.requeueScheduled (s : State) (recorded : Fin 4) (id : Nat) : State :=
  s.headOfClassQueue (((s.findSpan id).map SpanRecord.cls).getD recorded) id

/-! ### The analysis engine (R100, R101) -/

/-- The span values copied at the take; the list copy is for SCHEDULED and DEMAND jobs (R31, R107). -/
def spanCopyOf (kind : TestKind) (snapshot : Snapshot) (r : SpanRecord) : SpanCopy :=
  { fields := r.clamped
    rangeDistance := rangeDistance r.clamped.groupIndex snapshot.rangeBins
    landmarks := if kind = .learn then [] else r.landmarks }

/-- What is analysed: the span, unless it is gone or RETIRING (R101), or the coil a VERIFY job copied (R75). -/
def State.subjectOf (s : State) (f : Flight) : Option Subject :=
  match f.work with
  | .verify _ coil => some (.coil coil)
  | .test kind id _ =>
    match s.findSpan id with
    | none => none
    | some r => if r.state = .retiring then none else some (.span (spanCopyOf kind f.snapshot r))

/-- The input copy of a job (R107). -/
def State.inputCopy (s : State) (f : Flight) : Option InputCopy :=
  match s.traceOf f.work.id .nm1625, s.subjectOf f with
  | some primary, some subject =>
    some
      { primary := primary.levels
        secondary := (s.traceOf f.work.id .nm1310).map Trace.levels
        snapshot := f.snapshot
        trim := (f.recorded.map Recorded.trim).getD 0
        subject := subject }
  | _, _ => none

/-- The analysis time in ns: P times the number of traces, divided by 1024, in ms (R102). -/
def analysisNs (points traces : Nat) : Nat := points * traces * 1000000 / 1024

/-- The number of traces of an input copy. -/
def InputCopy.traces (i : InputCopy) : Nat := if i.secondary.isSome then 2 else 1

/-- When the engine is IDLE and its queue is not empty, it takes the job at the head: the job becomes the current job, the
input copy is made, and the completion is set due (R101). -/
def State.takeHead (s : State) : State :=
  match s.engine.current, s.engine.queue with
  | none, f :: rest =>
    match s.inputCopy f with
    | some input =>
      { s with engine :=
          { queue := rest
            current := some
              { flight := f, input := input, due := s.now + analysisNs f.snapshot.profile.pointCount input.traces } } }
    | none => s
  | _, _ => s

/-- The channel hands its job on: trim and DEGRADED recorded, the bank released, the job at the tail of the analysis
queue, the channel IDLE (R87); an IDLE engine takes the head in the same act (R101). -/
def State.handOn (s : State) (ch : Letter) (f : Flight) : State :=
  let c := s.channels.get ch
  let f1 : Flight := { f with recorded := some { trim := c.trim, degraded := c.degraded } }
  let s1 := (s.setChannel ch { c with activity := .idle, accumulator := [] }).releaseBank ch
  ({ s1 with engine := { s1.engine with queue := s1.engine.queue ++ [f1] } } : State).takeHead

/-- The job in WAIT_ANALYSIS leaves the analysis queue, its buffers are freed, and the engine takes the head if it is
IDLE (R103). -/
def State.leaveAnalysisQueue (s : State) (j : JobId) : State :=
  let s1 := s.freeBuffersOf j
  ({ s1 with engine := { s1.engine with queue := s1.engine.queue.filter (fun f => f.work.id != j) } } : State).takeHead

/-- The span's job removed from where it stands, short of ANALYSING (R18, R172). -/
def State.removeJob (s : State) (id : Nat) : JobPlace → State
  | .classQueue _ => s.leaveClassQueue id
  | .demandQueue _ => s.leaveDemandQueue id
  | .channel ch _ => s.abortChannel ch
  | .waiting _ => s.leaveAnalysisQueue (.span id)
  | .analysing _ => s

/-! ### The exchange of a request and its response (chapter 10) -/

/-- What the owning block answers: a status and the response body. -/
structure Reply where
  status : Status
  body   : List Byte
deriving DecidableEq, Repr

/-- A refusal: no body (R198). -/
def Reply.refusal (status : Status) : Reply := { status := status, body := [] }

/-- The bytes clocked out in a request period, and in an ignored period: all 0xFF (R185). -/
def idleBytes (n : Nat) : List Byte := List.replicate n 0xFF

/-- A pending response is discarded at the end of a request period, and the discard note is set (R189). -/
def Link.discard (l : Link) : Link :=
  { l with response := none, discardNote := l.discardNote || l.response.isSome }

/-- The response formed: PRIOR_DISCARDED from the discard note, which is then cleared; ATTN_PENDING as ATTN stands after
the act; the link in RESPONSE_WAITING (R187). -/
def Link.withResponse (l : Link) (r : Reply) (attn : Bool) (clocked : Nat) : Link :=
  { l with
    state := .responseWaiting
    response := some { status := r.status, priorDiscarded := l.discardNote, attnPending := attn, body := r.body }
    discardNote := false
    dataOut := idleBytes clocked }

/-- The response to a request whose act is complete. -/
def State.respond (s : State) (clocked : Nat) (r : Reply) : State :=
  { s with link := s.link.withResponse r s.attn clocked }

/-- A pending response discarded (R189). -/
def State.discardPending (s : State) : State := { s with link := s.link.discard }

/-- A select period that begins while READY is low is ignored in whole: every byte clocked out reads 0xFF (R185). -/
def State.ignorePeriod (s : State) (clocked : Nat) : State := { s with link := { s.link with dataOut := idleBytes clocked } }

/-- A request period in which `clocked` bytes pass: ignored while READY is low; otherwise a pending response is discarded,
the owning block takes the request in one act, and its answer becomes the pending response (R185 to R189). -/
def State.exchange (s : State) (clocked : Nat) (act : State → State × Reply) : State :=
  if s.ready then ((act s.discardPending).1).respond clocked (act s.discardPending).2
  else s.ignorePeriod clocked

end Sys2Proof.Machine
end

