-- ==== Sys2Proof/Machine/Extraction.lean ====
section
/-! DEFINITION. Event extraction (chapter 6): the arithmetic that turns the level trace of an input copy into the end of
fibre, events and distances. Each list below starts at the point its docstring names and goes up point by point. -/

namespace Sys2Proof.Machine

/-! ### Windows, floor and end of fibre -/

/-- The truncated means of `n` windows of `w` levels, the first window at the head of the list (R109, R112). -/
def windowMeans (w : Nat) : Nat → List Nat → List Nat
  | 0, _ => []
  | n + 1, levels => (levels.take w).sum / w :: windowMeans w n levels.tail

/-- Every window mean of a trace of `points` levels: entry `i` is the mean of levels `i` to `i + w - 1`. -/
def allWindowMeans (points w : Nat) (levels : List Nat) : List Nat := windowMeans w (points + 1 - w) levels

/-- The lower bound p0 of the step range (R108). -/
def lowerBound (w spacing launchOffset : Nat) : Nat := max w (ceilDiv launchOffset spacing)

/-- The floor F: the mean of the last 256 levels, truncated (R111). -/
def floorLevel (points : Nat) (levels : List Nat) : Nat := ((levels.drop (points - 256)).take 256).sum / 256

/-- The first point from `p0` up whose window mean is at most the end threshold (R112). -/
def firstAtMost (threshold : Nat) : Nat → List Nat → Option Nat
  | _, [] => none
  | i, m :: ms => if m ≤ threshold then some i else firstAtMost threshold (i + 1) ms

/-- The end of fibre E, if there is one (R112). -/
def endOfFibre? (points w p0 threshold : Nat) (levels : List Nat) : Option Nat :=
  firstAtMost threshold p0 ((allWindowMeans points w levels).drop p0)

/-! ### Steps and peaks -/

/-- The slope correction C (R109). -/
def slopeCorrection (attenuation w guard spacing groupIndex : Nat) : Nat :=
  roundDiv (attenuation * (w + guard) * spacing * 749481) (2 * groupIndex * 100000)

/-- The steps from point p0 up: near window mean less far window mean less the slope correction (R109, R110). -/
def stepsFrom (p0 w guard correction : Nat) (means : List Nat) : List Int :=
  List.zipWith (fun near far => (near : Int) - (far : Int) - (correction : Int)) (means.drop (p0 - w))
    (means.drop (p0 + guard))

/-- The peaks from point p0 up: level less near window mean (R110). -/
def peaksFrom (p0 w : Nat) (means levels : List Nat) : List Int :=
  List.zipWith (fun near level => (level : Int) - (near : Int)) (means.drop (p0 - w)) (levels.drop p0)

/-- One point of the run range: its step, its peak, and its secondary step where there is a secondary trace (R110). -/
structure Point where
  index : Nat
  step  : Int
  peak  : Int
  step2 : Option Int
deriving DecidableEq, Repr

/-- `n` points from `i` up, from their steps, peaks and secondary steps. -/
def pointsFrom : Nat → Nat → List Int → List Int → List (Option Int) → List Point
  | i, n + 1, s :: ss, h :: hs, t :: ts => ⟨i, s, h, t⟩ :: pointsFrom (i + 1) n ss hs ts
  | _, _, _, _, _ => []

/-- The points of the run range: those of the step range p0 to P - g - w that lie below E (R108, R113). -/
def runRange (points w guard p0 correction e : Nat) (primary : List Nat) (secondary : Option (List Nat)) : List Point :=
  let count := min (points + 1 - (p0 + guard + w)) (e - p0)
  let means := allWindowMeans points w primary
  let steps := stepsFrom p0 w guard correction means
  let steps2 :=
    match secondary with
    | none => List.replicate steps.length none
    | some levels2 => (stepsFrom p0 w guard correction (allWindowMeans points w levels2)).map some
  pointsFrom p0 count steps (peaksFrom p0 w means primary) steps2

/-! ### Runs and events -/

/-- The runs of consecutive points that pass `p`; `current` is the run being gathered, last point first (R114, R115). -/
def runsOf (p : Point → Bool) : List Point → List Point → List (List Point)
  | current, [] => if current.isEmpty then [] else [current.reverse]
  | current, x :: xs =>
    if p x then runsOf p (x :: current) xs
    else if current.isEmpty then runsOf p [] xs
    else current.reverse :: runsOf p [] xs

/-- An event (R117). -/
structure Event where
  location   : Nat
  reflective : Bool
  loss       : Nat
  height     : Nat
  step       : Int
  step2      : Option Int
  distance   : Nat
deriving DecidableEq, Repr

/-- The greatest peak of the points (R114). -/
def maxPeak (peak : Int) (l : List Point) : Int := l.foldl (fun best p => if best < p.peak then p.peak else best) peak

/-- The first of the points with the greatest step (R115). -/
def maxStep (first : Point) (l : List Point) : Point := l.foldl (fun best p => if best.step < p.step then p else best) first

/-- The event of a reflective run, its loss the own loss (R114). -/
def reflectiveEvent : List Point → Option Event
  | [] => none
  | r :: rest =>
    some
      { location := r.index, reflective := true, loss := r.step.toNat, height := (maxPeak r.peak rest).toNat,
        step := r.step, step2 := r.step2, distance := 0 }

/-- The event of a loss run (R115). -/
def lossEvent : List Point → Option Event
  | [] => none
  | first :: rest =>
    let m := maxStep first rest
    some
      { location := m.index, reflective := false, loss := m.step.toNat, height := 0, step := m.step, step2 := m.step2,
        distance := 0 }

/-- The reflective run that a loss run at `location` is merged into: among the runs within reach, the one with the
greatest location (R116). -/
def mergeTarget (guard : Nat) (reflective : List Event) (location : Nat) : Option Nat :=
  ((reflective.filter (fun r => r.location ≤ location && location < r.location + guard)).getLast?).map Event.location

/-- The reflective event with the losses merged into it: the greatest of them and its own (R116). -/
def mergeInto (guard : Nat) (reflective losses : List Event) (r : Event) : Event :=
  let merged := losses.filter (fun l => mergeTarget guard reflective l.location == some r.location)
  { r with loss := merged.foldl (fun best l => max best l.loss) r.loss }

/-- The event list before it is limited, in ascending location (R117). -/
def mergedEvents (guard : Nat) (reflective losses : List Event) : List Event :=
  sortBy (fun a b => a.location ≤ b.location)
    (reflective.map (mergeInto guard reflective losses) ++
      losses.filter (fun l => (mergeTarget guard reflective l.location).isNone))

/-! ### Distances -/

/-- The distance of a point: the middle of its bins, less the launch offset, plus the trim, converted, and at most the
range distance (R118). -/
def pointDistance (spacing launchOffset : Nat) (trim : Int) (groupIndex range i : Nat) : Nat :=
  min (signedBinsToCm groupIndex (((i * spacing + spacing / 2 : Nat) : Int) - (launchOffset : Int) + trim)) range

/-! ### The result -/

/-- The result of extraction for a span (R119). -/
structure Extraction where
  events         : List Event
  endPoint       : Nat
  endBeyondRange : Bool
  truncated      : Bool
  endDistance    : Nat
  pointDistance  : Nat
  hasSecondary   : Bool
deriving DecidableEq, Repr

/-- The end threshold: the floor plus the end margin (R112). -/
def endThreshold (input : InputCopy) : Nat :=
  floorLevel input.snapshot.profile.pointCount input.primary + input.snapshot.profile.endMargin

/-- The end of fibre of an input copy, for a launch offset (R108, R112); a VERIFY job uses a launch offset of 0. -/
def inputEnd? (input : InputCopy) (launchOffset : Nat) : Option Nat :=
  let p := input.snapshot.profile
  endOfFibre? p.pointCount p.window (lowerBound p.window p.spacing launchOffset) (endThreshold input) input.primary

/-- Extraction for a job that names a span (R108 to R119). -/
def extract (input : InputCopy) (c : SpanCopy) : Extraction :=
  let p := input.snapshot.profile
  let g := input.snapshot.guard
  let f := c.fields
  let p0 := lowerBound p.window p.spacing f.launchOffset
  let found := inputEnd? input f.launchOffset
  let e := found.getD p.pointCount
  let correction := slopeCorrection f.attenuation p.window g p.spacing f.groupIndex
  let points := runRange p.pointCount p.window g p0 correction e input.primary input.secondary
  let reflective := (runsOf (fun x => (p.reflectiveThreshold : Int) ≤ x.peak) [] points).filterMap reflectiveEvent
  let losses := (runsOf (fun x => (f.lossThreshold : Int) ≤ x.step) [] points).filterMap lossEvent
  let all := mergedEvents g reflective losses
  let place (i : Nat) := pointDistance p.spacing f.launchOffset input.trim f.groupIndex c.rangeDistance i
  { events := (all.take 64).map (fun ev => { ev with distance := place ev.location })
    endPoint := e
    endBeyondRange := found.isNone
    truncated := decide (64 < all.length)
    endDistance := place e
    pointDistance := binsToCm f.groupIndex p.spacing
    hasSecondary := input.secondary.isSome }

end Sys2Proof.Machine
end

