-- ==== Sys2Proof/Machine/Comparison.lean ====
section
/-! DEFINITION. The comparison with the baseline, the learn analysis and the verify analysis (chapter 7), as arithmetic on
the result of extraction. -/

namespace Sys2Proof.Machine

/-! ### Match tolerance and matching (R122, R123) -/

/-- The match tolerance T (R122). -/
def matchTolerance (c : SpanCopy) (x : Extraction) : Nat := c.fields.matchTolerance + x.pointDistance

/-- The difference of two distances. -/
def distanceGap (a b : Nat) : Nat := if a ≤ b then b - a else a - b

/-- Which events a landmark of this kind may take (R123). -/
def compatible (k : LandmarkKind) (e : Event) : Bool :=
  match k with
  | .connector => e.reflective
  | .splice => true
  | .splitter => true
  | .farEnd => false

/-- `a` is taken rather than `b` by a landmark at `d`: nearest, then lower distance, then lower location (R123). -/
def takenBefore (d : Nat) (a b : Event) : Bool :=
  let ga := distanceGap d a.distance
  let gb := distanceGap d b.distance
  ga < gb || (ga == gb && (a.distance < b.distance || (a.distance == b.distance && a.location < b.location)))

/-- The event among `events` that a landmark takes (R123). -/
def chooseEvent (t : Nat) (m : Landmark) (events : List Event) : Option Event :=
  (events.filter (fun e => compatible m.kind e && distanceGap m.distance e.distance ≤ t)).foldl
    (fun best e =>
      match best with
      | none => some e
      | some b => if takenBefore m.distance e b then some e else some b)
    none

/-- What matching leaves: the matched pairs in landmark order, and the unmatched events (R124). -/
structure Matching where
  pairs     : List (Landmark × Event)
  unmatched : List Event
deriving DecidableEq, Repr

/-- The landmarks taken one at a time in ascending distance (R123). -/
def matchLandmarks (t : Nat) : List Landmark → List Event → Matching
  | [], events => { pairs := [], unmatched := events }
  | m :: ms, events =>
    match chooseEvent t m events with
    | none => matchLandmarks t ms events
    | some e =>
      let rest := matchLandmarks t ms (events.filter (fun x => x.location != e.location))
      { rest with pairs := (m, e) :: rest.pairs }

/-! ### Findings (R125 to R131) -/

/-- A finding (R125). -/
structure Finding where
  kind      : FaultKind
  distance  : Nat
  magnitude : Nat
  single    : Bool
  degraded  : Bool
deriving DecidableEq, Repr

/-- The place of a kind in the order of findings at one distance (R125). -/
def kindOrder : FaultKind → Nat
  | .break_ => 0
  | .bend => 1
  | .loss => 2
  | .drift => 3
  | .reflection => 4

/-- DRIFT, where the event's loss exceeds the landmark's baseline loss by the drift threshold or more (R127). -/
def driftFinding (c : SpanCopy) (degraded : Bool) (p : Landmark × Event) : Option Finding :=
  if p.1.loss + c.fields.driftThreshold ≤ p.2.loss then
    some
      { kind := .drift, distance := min p.1.distance c.rangeDistance, magnitude := p.2.loss - p.1.loss, single := false,
        degraded := degraded }
  else none

/-- The far end of a list copy (R128). -/
def farEndOf (l : List Landmark) : Option Landmark := l.find? (fun m => m.kind == .farEnd)

/-- The magnitude of a BREAK: the height of the last reflective event within the guard length before E, or 0 (R128). -/
def breakMagnitude (guard : Nat) (x : Extraction) : Nat :=
  (((x.events.filter (fun e => e.reflective && x.endPoint ≤ e.location + guard && e.location < x.endPoint)).getLast?).map
    Event.height).getD 0

/-- The break test (R128). -/
def breakFinding (t guard : Nat) (c : SpanCopy) (x : Extraction) (degraded : Bool) : Option Finding :=
  match farEndOf c.landmarks with
  | none => none
  | some far =>
    if x.endDistance + t < far.distance then
      some
        { kind := .break_, distance := x.endDistance, magnitude := breakMagnitude guard x, single := false,
          degraded := degraded }
    else none

/-- The bend excess: the step less the larger of 0 and the secondary step (R129). -/
def bendExcess (e : Event) (step2 : Int) : Int := e.step - max 0 step2

/-- The finding of an unmatched event (R129, R130). -/
def eventFinding (c : SpanCopy) (degraded : Bool) (e : Event) : Finding :=
  if e.reflective then
    { kind := .reflection, distance := e.distance, magnitude := e.height, single := false, degraded := degraded }
  else
    match e.step2 with
    | none => { kind := .loss, distance := e.distance, magnitude := e.loss, single := true, degraded := degraded }
    | some s2 =>
      if (c.fields.bendMargin : Int) ≤ bendExcess e s2 then
        { kind := .bend, distance := e.distance, magnitude := e.loss, single := false, degraded := degraded }
      else { kind := .loss, distance := e.distance, magnitude := e.loss, single := false, degraded := degraded }

/-- The order of the finding list: ascending distance, then kind; findings of one kind and distance stay in the order of
their events or landmarks (R125). -/
def findingLe (a b : Finding) : Bool :=
  a.distance < b.distance || (a.distance == b.distance && kindOrder a.kind ≤ kindOrder b.kind)

/-- The finding list of a result (R125, R126). -/
def findingList (guard : Nat) (c : SpanCopy) (x : Extraction) (degraded : Bool) : List Finding :=
  let t := matchTolerance c x
  let m := matchLandmarks t c.landmarks x.events
  sortBy findingLe
    (m.pairs.filterMap (driftFinding c degraded) ++ (breakFinding t guard c x degraded).toList ++
      m.unmatched.map (eventFinding c degraded))

/-! ### Learn analysis (R135, R39) -/

/-- The key of an event: the larger of its loss and its height (R135). -/
def eventKey (e : Event) : Nat := max e.loss e.height

/-- The order in which events are selected: greatest key, then lower distance, then lower location (R135, step 1). -/
def selectedBefore (a b : Event) : Bool :=
  eventKey b < eventKey a ||
    (eventKey a == eventKey b && (a.distance < b.distance || (a.distance == b.distance && a.location ≤ b.location)))

/-- Ascending distance, ties in ascending location (R135, step 2). -/
def placedBefore (a b : Event) : Bool := a.distance < b.distance || (a.distance == b.distance && a.location ≤ b.location)

/-- The landmark that an event becomes (R135, step 3). -/
def learnedLandmark (e : Event) : Landmark :=
  if e.reflective then { distance := e.distance, kind := .connector, loss := e.loss, height := e.height }
  else { distance := e.distance, kind := if 10000 ≤ e.loss then .splitter else .splice, loss := e.loss, height := 0 }

/-- The list without the entries that share a distance with the entry before them (R135, step 4). -/
def dropDuplicates : List Landmark → List Landmark
  | [] => []
  | m :: ms =>
    match dropDuplicates ms with
    | [] => [m]
    | n :: rest => if m.distance = n.distance then m :: rest else m :: n :: rest

/-- The values an entry may hold: capped, and zero where its kind holds none (R33, R39). -/
def shapeLandmark (m : Landmark) : Landmark :=
  match m.kind with
  | .connector => { m with loss := min m.loss 20000, height := min m.height 24082 }
  | .splice => { m with loss := min m.loss 20000, height := 0 }
  | .splitter => { m with loss := min m.loss 20000, height := 0 }
  | .farEnd => { m with loss := 0, height := 0 }

/-- The learned list as the pool shapes it: the selected events short of the end distance, and a FAR_END at it (R135,
R39). -/
def learnedList (x : Extraction) : List Landmark :=
  let kept := (sortBy selectedBefore x.events).take 31
  let proposal := dropDuplicates ((sortBy placedBefore kept).map learnedLandmark)
  ((proposal.filter (fun m => m.distance < x.endDistance)).map shapeLandmark) ++
    [{ distance := x.endDistance, kind := .farEnd, loss := 0, height := 0 }]

/-! ### Verify analysis (R136, R137) -/

/-- The expected bin of a coil's end (R136). -/
def expectedBin (coil : Coil) : Nat := roundDiv (coil.length * 2 * coil.groupIndex) 749481

/-- The timing error D (R136). -/
def timingError (coil : Coil) (spacing endPoint : Nat) : Int :=
  ((endPoint * spacing + spacing / 2 : Nat) : Int) - (expectedBin coil : Int)

/-- The trim and DEGRADED flag after a verify analysis, from those the channel held (R137). -/
def verifyResult (coil : Coil) (spacing : Nat) (endPoint : Option Nat) (trim : Int) : Int × Bool :=
  match endPoint with
  | none => (trim, true)
  | some e =>
    let d := timingError coil spacing e
    if 256 < d.natAbs then (trim, true) else (clampInt (-64) 63 (-d), false)

end Sys2Proof.Machine
end

