-- ==== Sys2Proof/Machine/Conditions.lean ====
section
/-! DEFINITION. The condition table (chapter 8): what a result does to it, and what adoption and retirement do. -/

namespace Sys2Proof.Machine

/-- A result handed to the condition table (R133). -/
structure Result where
  span         : Nat
  findings     : List Finding
  tolerance    : Nat
  confirmCount : Nat
  clearCount   : Nat
  window       : Nat
deriving DecidableEq, Repr

/-! ### Matching (R145, R146) -/

/-- Whether a finding of the first kind may match a condition of the second (R146). -/
def FaultKind.mayMatch : FaultKind → FaultKind → Bool
  | .break_, k => k == .break_
  | .bend, k => k == .bend || k == .loss
  | .loss, k => k == .loss || k == .bend
  | .drift, k => k == .drift
  | .reflection, k => k == .reflection

/-- A pair that matching considers: the finding by its place in the list, the condition by its tag (R145). -/
structure Candidate where
  gap     : Nat
  finding : Nat
  tag     : Nat
deriving DecidableEq, Repr

/-- The order in which pairs are taken: difference of distance, then place of the finding, then tag (R145). -/
def Candidate.le (a b : Candidate) : Bool :=
  a.gap < b.gap || (a.gap == b.gap && (a.finding < b.finding || (a.finding == b.finding && a.tag ≤ b.tag)))

/-- The condition is one that the finding may be paired with (R145). -/
def Result.considers (r : Result) (f : Finding) (c : Condition) : Bool :=
  c.span == r.span && c.state.isOpen && f.kind.mayMatch c.kind && distanceGap f.distance c.distance ≤ r.tolerance

/-- Every pair that matching considers, in the order it takes them (R145). -/
def Result.candidates (r : Result) (conditions : List Condition) : List Candidate :=
  sortBy Candidate.le <|
    r.findings.zipIdx.flatMap fun (f, i) =>
      (conditions.filter (r.considers f)).map fun c =>
        { gap := distanceGap f.distance c.distance, finding := i, tag := c.tag }

/-- The pair is made unless its finding or its condition is already in a made pair (R145). -/
def makePair (made : List Candidate) (p : Candidate) : List Candidate :=
  if made.any (fun m => m.finding == p.finding || m.tag == p.tag) then made else made ++ [p]

/-- The made pairs (R145). -/
def Result.pairs (r : Result) (conditions : List Condition) : List Candidate :=
  (r.candidates conditions).foldl makePair []

/-! ### Misses and matches (R147, R148, R153) -/

/-- The condition after a miss (R148), its mark set where its state changes (R153). -/
def Condition.miss (clearCount : Nat) (c : Condition) : Condition :=
  match c.state with
  | .suspect => { c with state := .retired, mark := true }
  | .confirmed => { c with misses := 1, state := if clearCount = 1 then .retired else .clearing, mark := true }
  | .clearing =>
    if clearCount ≤ c.misses + 1 then { c with misses := c.misses + 1, state := .retired, mark := true }
    else { c with misses := c.misses + 1 }
  | .retired => c

/-- The state of a condition after a match that brings its hits to `hits` (R147). -/
def CondState.afterMatch (confirmCount hits : Nat) : CondState → CondState
  | .suspect => if confirmCount ≤ hits then .confirmed else .suspect
  | .confirmed => .confirmed
  | .clearing => .confirmed
  | .retired => .retired

/-- A BEND finding upgrades a LOSS condition (R146). -/
def Condition.upgradedBy (c : Condition) (f : Finding) : Bool := f.kind == .bend && c.kind == .loss

/-- The condition after a match (R147), its mark set as R153 states. -/
def Condition.hit (confirmCount window : Nat) (f : Finding) (c : Condition) : Condition :=
  let hits := satSucc 15 c.hits
  let state := c.state.afterMatch confirmCount hits
  let upgraded := c.upgradedBy f
  { c with
    kind := if upgraded then .bend else c.kind
    state := state
    distance := f.distance
    magnitude := f.magnitude
    hits := hits
    misses := 0
    lastSeen := window
    single := f.single
    degraded := f.degraded
    acknowledged := c.acknowledged && !upgraded && c.state != .clearing
    mark := c.mark || state != c.state || upgraded || (f.magnitude != c.magnitude && !c.acknowledged) }

/-! ### Creation, displacement and tags (R142, R149 to R151) -/

/-- The age of a condition when a result with this window number is applied (R140). -/
def Condition.age (window : Nat) (c : Condition) : Nat := (window + 65536 - c.firstSeen) % 65536

/-- The oldest of some conditions in creation order: the greatest age, and the earlier of two equal ages (R140). -/
def oldest (window : Nat) : List Condition → Option Condition
  | [] => none
  | c :: cs =>
    match oldest window cs with
    | none => some c
    | some d => if c.age window < d.age window then some d else some c

/-- The conditions of the lowest severity among some, in creation order. -/
def ofLowestSeverity (m : SeverityMap) (l : List Condition) : List Condition :=
  l.filter (fun c => l.all (fun d => m.of c.kind ≤ m.of d.kind))

/-- The condition that a creation of this kind displaces from a full table, chosen among `candidates` (R150). -/
def displaced (m : SeverityMap) (window : Nat) (kind : FaultKind) (candidates : List Condition) : Option Condition :=
  (oldest window (candidates.filter (fun c => c.state == .retired))).or <|
  (oldest window (candidates.filter (fun c => c.state == .clearing))).or <|
  oldest window (ofLowestSeverity m (candidates.filter (fun c =>
    (c.state == .suspect || c.state == .confirmed) && m.of c.kind < m.of kind)))

/-- The first value from `t` on that is neither 0 nor in use, looked for over `fuel` advances (R142). -/
def nextTag (inUse : List Nat) : Nat → Nat → Nat
  | 0, t => t
  | fuel + 1, t => if t == 0 || inUse.contains t then nextTag inUse fuel (wrapSucc t) else t

/-- The tag that a creation takes: at most one more value than the tags in use can be passed over (R142). -/
def freshTag (conditions : List Condition) (counter : Nat) : Nat :=
  nextTag (conditions.map Condition.tag) (conditions.length + 2) counter

/-- The condition that a finding creates (R149). -/
def Result.newCondition (r : Result) (tag : Nat) (f : Finding) : Condition :=
  { tag := tag, span := r.span, kind := f.kind
    state := if f.kind = .break_ ∨ r.confirmCount = 1 then .confirmed else .suspect
    distance := f.distance, magnitude := f.magnitude, hits := 1, misses := 0
    firstSeen := r.window, lastSeen := r.window, single := f.single, degraded := f.degraded
    acknowledged := false, mark := true }

/-- The table in the middle of step 3: with the tags that may not be displaced (those that step 1 paired and those that
step 3 created) and the number of findings dropped so far (R150, R151). -/
structure Folding where
  table    : CondTable
  excluded : List Nat
  dropped  : Nat
deriving DecidableEq, Repr

/-- A condition created at the end of the creation order, its tag taken from the counter (R142, R149). -/
def Folding.add (k : Folding) (r : Result) (conditions : List Condition) (f : Finding) : Folding :=
  let tag := freshTag conditions k.table.tagCounter
  { k with
    table := { k.table with conditions := conditions ++ [r.newCondition tag f], tagCounter := wrapSucc tag }
    excluded := tag :: k.excluded }

/-- An unpaired finding creates a condition in a free slot, or in one freed by displacement, or is dropped (R149 to
R151). -/
def Folding.create (k : Folding) (r : Result) (f : Finding) : Folding :=
  let conditions := k.table.conditions
  if conditions.length < 96 then k.add r conditions f
  else
    match displaced k.table.severity r.window f.kind (conditions.filter (fun c => !k.excluded.contains c.tag)) with
    | some d => k.add r (conditions.filter (fun c => c.tag != d.tag)) f
    | none => { k with dropped := k.dropped + 1 }

/-- `f` applied to the condition with this tag. -/
def CondTable.modify (t : CondTable) (tag : Nat) (f : Condition → Condition) : CondTable :=
  { t with conditions := t.conditions.map (fun c => if c.tag = tag then f c else c) }

/-- One finding taken at step 3: it updates its condition, or creates one (R144). -/
def Folding.take (r : Result) (pairs : List Candidate) (k : Folding) (f : Finding × Nat) : Folding :=
  match pairs.find? (fun p => p.finding == f.2) with
  | some p => { k with table := k.table.modify p.tag (Condition.hit r.confirmCount r.window f.1) }
  | none => k.create r f.1

/-- Step 2: each open condition of the result's span that no finding is paired with takes a miss (R144, R148). -/
def Result.missUnpaired (r : Result) (pairs : List Candidate) (c : Condition) : Condition :=
  if c.span = r.span ∧ c.state.isOpen = true ∧ pairs.all (fun p => p.tag != c.tag) = true then c.miss r.clearCount else c

/-- A result applied to the table (R144). -/
def CondTable.apply (t : CondTable) (r : Result) : Folding :=
  let pairs := r.pairs t.conditions
  let missed : CondTable := { t with conditions := t.conditions.map (r.missUnpaired pairs) }
  r.findings.zipIdx.foldl (Folding.take r pairs) { table := missed, excluded := pairs.map Candidate.tag, dropped := 0 }

/-- `n` findings of the span dropped (R151). -/
def SpanRecord.dropFindings : Nat → SpanRecord → SpanRecord
  | 0, r => r
  | n + 1, r => SpanRecord.dropFindings n r.dropFinding

/-- A result applied to the table, and its dropped findings to the span (R144, R151). -/
def State.applyResult (s : State) (r : Result) : State :=
  let k := s.table.apply r
  ({ s with table := k.table } : State).modifySpan r.span (SpanRecord.dropFindings k.dropped)

end Sys2Proof.Machine
end

