-- ==== Sys2Proof/Machine/MarksRequests.lean ====
section
/-! DEFINITION. The landmark requests (chapter 2): MARKS_APPEND, MARKS_READ, MARKS_CLEAR. -/

namespace Sys2Proof.Machine

/-! ### MARKS_APPEND (R32 to R34) -/

/-- A landmark entry as it travels (R201). -/
structure CarriedMark where
  distance : Nat
  kind     : Nat
  loss     : Nat
  height   : Nat
deriving DecidableEq, Repr

/-- The landmark entries that some bytes hold, 9 bytes each (R201). -/
def carriedMarks : List Byte → List CarriedMark
  | d3 :: d2 :: d1 :: d0 :: k :: l1 :: l0 :: h1 :: h0 :: rest =>
    { distance := (join32 d3 d2 d1 d0).toNat, kind := k.toNat, loss := (join16 l1 l0).toNat
      height := (join16 h1 h0).toNat } :: carriedMarks rest
  | _ => []

/-- The entry, if its kind and its distance are ones that a landmark may have (R32 step 5). -/
def CarriedMark.landmark? (m : CarriedMark) : Option Landmark :=
  if maxDistance < m.distance then none
  else (landmarkKindOfNat m.kind).map fun k => { distance := m.distance, kind := k, loss := m.loss, height := m.height }

/-- The entries may follow `last`: each lies beyond the one before it, and none follows a FAR_END (R32 step 6). -/
def mayFollow : Option Landmark → List Landmark → Bool
  | _, [] => true
  | none, m :: ms => mayFollow (some m) ms
  | some p, m :: ms => p.kind != .farEnd && p.distance < m.distance && mayFollow (some m) ms

/-- MARKS_APPEND is examined further only in DRAFT or HELD (R32 step 4), and MARKS_CLEAR likewise (R37). -/
def SpanState.listMayChange : SpanState → Bool
  | .draft => true
  | .held => true
  | .learning => false
  | .active => false
  | .retiring => false

/-- The refusal of entries that a span's list cannot take, by steps 6 to 8 of R32. -/
def State.refusesMarks (s : State) (r : SpanRecord) (marks : List Landmark) : Option Status :=
  if mayFollow r.landmarks.getLast? marks = false then some .badOrder
  else if 32 < r.landmarks.length + marks.length then some .listFull
  else if s.poolFree < marks.length then some .poolFull
  else none

/-- The list replaced, the revision counted, the mark set (R34, R37, R40). -/
def SpanRecord.withList (l : List Landmark) (r : SpanRecord) : SpanRecord :=
  { r with landmarks := l, revision := wrapSucc r.revision, mark := true }

/-- The entries joined to a span's list (R33, R34). -/
def appendMarks (s : State) (r : SpanRecord) (marks : List Landmark) : State × Reply :=
  match s.refusesMarks r marks with
  | some status => (s, Reply.refusal status)
  | none =>
    let shaped := marks.map shapeLandmark
    let r1 := r.withList (r.landmarks ++ shaped)
    (s.modifySpan r.id (fun _ => r1), { status := takenStatus (shaped != marks), body := listStateBytes r1 })

/-- The act of MARKS_APPEND on a body of identifier, count and entries (R32). -/
def actMarks (id count : Nat) (entries : List Byte) (s : State) : State × Reply :=
  if id = 0 ∨ count = 0 ∨ 16 < count ∨ entries.length ≠ 9 * count then (s, Reply.refusal .badField)
  else
    match s.findSpan id with
    | none => (s, Reply.refusal .notFound)
    | some r =>
      if r.state.listMayChange = false then (s, Reply.refusal .wrongState)
      else
        match (carriedMarks entries).mapM CarriedMark.landmark? with
        | none => (s, Reply.refusal .badField)
        | some marks => appendMarks s r marks

/-- The act of MARKS_APPEND (R32). A body with no complete identifier and count is refused first. -/
def actMarksAppend (body : List Byte) (s : State) : State × Reply :=
  match body with
  | hi :: lo :: count :: entries => actMarks (join16 hi lo).toNat count.toNat entries s
  | _ => (s, Reply.refusal .badField)

/-- MARKS_APPEND (R34). -/
def execMarksAppend (body : List Byte) (s : State) : Host.Outcome State Fault Refusal :=
  .next (s.exchange (3 + body.length) (actMarksAppend body))

/-! ### MARKS_READ and MARKS_CLEAR (R36, R37) -/

/-- The MARKS_READ response: identifier, count, revision, start index, number of entries, entries (R201). -/
def marksReply (r : SpanRecord) (start : Nat) : Reply :=
  let entries := (r.landmarks.drop start).take 16
  { status := .ok
    body := listStateBytes r ++ [byte start, byte entries.length] ++ entries.flatMap landmarkBytes }

/-- The act of MARKS_READ (R36). -/
def actMarksRead (id : U16) (start : Byte) (s : State) : State × Reply :=
  if id.toNat = 0 ∨ 32 < start.toNat then (s, Reply.refusal .badField)
  else
    match s.findSpan id.toNat with
    | none => (s, Reply.refusal .notFound)
    | some r => (s, marksReply r start.toNat)

/-- MARKS_READ (R36). -/
def execMarksRead (id : U16) (start : Byte) (s : State) : Host.Outcome State Fault Refusal :=
  .next (s.exchange 6 (actMarksRead id start))

/-- The act of MARKS_CLEAR (R37). -/
def actMarksClear (id : U16) (s : State) : State × Reply :=
  if id.toNat = 0 then (s, Reply.refusal .badField)
  else
    match s.findSpan id.toNat with
    | none => (s, Reply.refusal .notFound)
    | some r =>
      if r.state.listMayChange = false then (s, Reply.refusal .wrongState)
      else if r.landmarks = [] then (s, { status := .ok, body := listStateBytes r })
      else (s.modifySpan r.id (fun _ => r.withList []), { status := .ok, body := listStateBytes (r.withList []) })

/-- MARKS_CLEAR (R37). -/
def execMarksClear (id : U16) (s : State) : Host.Outcome State Fault Refusal := .next (s.exchange 5 (actMarksClear id))

end Sys2Proof.Machine
end

