-- ==== Sys2Proof/Machine/AnalysisEvents.lean ====
section
/-! DEFINITION. The analysis engine's events: ANALYSIS_TAKE (R101) and ANALYSIS_COMPLETION (R105, chapters 6 to 8). -/

namespace Sys2Proof.Machine

/-! ### ANALYSIS_TAKE (R101) -/

/-- ANALYSIS_TAKE (R101). The part takes the head in the act of each hand-on, completion and removal that leaves the
engine IDLE with a job waiting (log entry 25). -/
def execAnalysisTake (s : State) : Host.Outcome State Fault Refusal := .next s.takeHead

/-! ### Judging a result (R120 to R137) -/

/-- A SCHEDULED or DEMAND job judged without a baseline: CLEAN, and nothing for the condition table (R132). -/
def State.judgeBare (s : State) (id : Nat) (x : Extraction) : State := s.writeOutcome id .clean (some x.endDistance)

/-- The result handed to the condition table (R133). -/
def resultOf (s : State) (id : Nat) (c : SpanCopy) (x : Extraction) (findings : List Finding) : Result :=
  { span := id, findings := findings, tolerance := matchTolerance c x, confirmCount := c.fields.confirmCount
    clearCount := c.fields.clearCount, window := s.timeBase.windowNumber }

/-- CLEAN or FINDINGS, by the finding list (R133). -/
def outcomeOf (findings : List Finding) : LastOutcome := if findings = [] then .clean else .findings

/-- A SCHEDULED or DEMAND job compared with the baseline: the outcome written and the result applied (R133). -/
def State.judgeBaseline (s : State) (id : Nat) (f : Flight) (c : SpanCopy) (x : Extraction) : State :=
  let degraded := (f.recorded.map Recorded.degraded).getD false
  let findings := findingList f.snapshot.guard c x degraded
  (s.writeOutcome id (outcomeOf findings) (some x.endDistance)).applyResult (resultOf s id c x findings)

/-- The record with an adopted list: the list, the revision, the state after LEARNING, the mark (R40). -/
def SpanRecord.adopt (l : List Landmark) (r : SpanRecord) : SpanRecord :=
  { r.withList l with state := if r.resume = .held then .held else .active }

/-- A learned list adopted, or the learn ended for pool shortage; either way the outcome is CLEAN (R39 to R41). -/
def State.adoptList (s : State) (id : Nat) (l : List Landmark) (endDistance : Nat) : State :=
  let s1 := s.writeOutcome id .clean (some endDistance)
  if l.length ≤ s.poolFree then (s1.modifySpan id (SpanRecord.adopt l)).retireConditions id
  else s1.modifySpan id SpanRecord.endLearn

/-- A LEARN job judged (R134, R135). -/
def State.judgeLearn (s : State) (id : Nat) (w : Work) (x : Extraction) : State :=
  if x.endBeyondRange then s.endWithOutcome w .noEnd else s.adoptList id (learnedList x) x.endDistance

/-- A job that names a span judged on its extraction (R120). -/
def State.judgeSpan (s : State) (id : Nat) (kind : TestKind) (a : Analysis) (c : SpanCopy) : State :=
  let x := extract a.input c
  match kind with
  | .learn => s.judgeLearn id a.flight.work x
  | .demand => if c.landmarks = [] then s.judgeBare id x else s.judgeBaseline id a.flight c x
  | .scheduled _ => if c.landmarks = [] then s.judgeBare id x else s.judgeBaseline id a.flight c x

/-- The channel's trim and DEGRADED flag written, its mark set where one changes (R97, R137). -/
def Channel.verified (c : Channel) (trim : Int) (degraded : Bool) : Channel :=
  { c with trim := trim, degraded := degraded, mark := c.mark || trim != c.trim || degraded != c.degraded }

/-- A VERIFY job judged: the channel that ran it takes a new trim and flag (R136, R137). -/
def State.judgeVerify (s : State) (a : Analysis) (coil : Coil) : State :=
  let c := s.channels.get a.flight.channel
  let v := verifyResult coil a.input.snapshot.profile.spacing (inputEnd? a.input 0) c.trim
  s.setChannel a.flight.channel (c.verified v.1 v.2)

/-- The disposition of a job that names a span, whose record is `r` (R105, R120, R121). -/
def State.disposeSpan (s : State) (a : Analysis) (kind : TestKind) (id revision : Nat) (r : SpanRecord) : State :=
  if r.state = .retiring then s.becomeEmpty id
  else if a.flight.cancelled then s
  else if r.revision ≠ revision then s.endWithOutcome a.flight.work .stale
  else
    match a.input.subject with
    | .span c => s.judgeSpan id kind a c
    | .coil _ => s

/-- The disposition of the current job's result (R105). -/
def State.dispose (s : State) (a : Analysis) : State :=
  match a.flight.work with
  | .verify _ coil => if a.flight.cancelled then s else s.judgeVerify a coil
  | .test kind id revision =>
    match s.findSpan id with
    | none => s
    | some r => s.disposeSpan a kind id revision r

/-- The job and its buffers freed, the engine IDLE, and the next job taken if one waits (R105). -/
def State.endAnalysis (s : State) (a : Analysis) : State :=
  let s1 := s.freeBuffersOf a.flight.work.id
  ({ s1 with engine := { s1.engine with current := none } } : State).takeHead

/-- ANALYSIS_COMPLETION (R105). -/
def execAnalysisCompletion (s : State) : Host.Outcome State Fault Refusal :=
  match s.engine.current with
  | none => .next s
  | some a => .next (((s.reach a.due).dispose a).endAnalysis a)

end Sys2Proof.Machine
end

