-- ==== Sys2Proof/Machine/ConditionRequests.lean ====
section
/-! DEFINITION. The condition requests (chapter 8): COND_GET, COND_NEXT, COND_ACK, COND_RETIRE, SEVERITY_SET. -/

namespace Sys2Proof.Machine

/-- The record of a condition with the severity of its kind, or NOT_FOUND (R154, R155). -/
def State.conditionReply (s : State) : Option Condition → Reply
  | some c => { status := .ok, body := conditionRecordBytes s.table.severity c }
  | none => Reply.refusal .notFound

/-- The act of COND_GET (R154). -/
def actCondGet (tag : U16) (s : State) : State × Reply :=
  (s, if tag.toNat = 0 then Reply.refusal .badField else s.conditionReply (s.findCondition tag.toNat))

/-- COND_GET (R154). -/
def execCondGet (tag : U16) (s : State) : Host.Outcome State Fault Refusal := .next (s.exchange 5 (actCondGet tag))

/-- The span's condition with the smallest tag greater than this one (R155). -/
def State.conditionAfter (s : State) (id tag : Nat) : Option Condition :=
  (sortBy (fun c d => c.tag ≤ d.tag) (s.table.conditions.filter (fun c => c.span == id && tag < c.tag))).head?

/-- The act of COND_NEXT (R155). -/
def actCondNext (id tag : U16) (s : State) : State × Reply :=
  (s, if id.toNat = 0 then Reply.refusal .badField else s.conditionReply (s.conditionAfter id.toNat tag.toNat))

/-- COND_NEXT (R155). -/
def execCondNext (id tag : U16) (s : State) : Host.Outcome State Fault Refusal := .next (s.exchange 7 (actCondNext id tag))

/-- ACKNOWLEDGED set on the condition with this tag (R156). -/
def State.acknowledge (s : State) (tag : Nat) : State :=
  { s with table := { s.table with
      conditions := s.table.conditions.map (fun c => if c.tag = tag then { c with acknowledged := true } else c) } }

/-- The act of COND_ACK (R156). -/
def actCondAck (tag : U16) (s : State) : State × Reply :=
  if tag.toNat = 0 then (s, Reply.refusal .badField)
  else
    match s.findCondition tag.toNat with
    | none => (s, Reply.refusal .notFound)
    | some c =>
      if c.state = .retired then (s, Reply.refusal .wrongState)
      else (s.acknowledge tag.toNat, { status := .ok, body := [] })

/-- COND_ACK (R156). -/
def execCondAck (tag : U16) (s : State) : Host.Outcome State Fault Refusal := .next (s.exchange 5 (actCondAck tag))

/-- The condition with this tag leaves the table (R157). -/
def State.freeCondition (s : State) (tag : Nat) : State :=
  { s with table := { s.table with conditions := s.table.conditions.filter (fun c => c.tag != tag) } }

/-- The act of COND_RETIRE (R157). -/
def actCondRetire (tag : U16) (s : State) : State × Reply :=
  if tag.toNat = 0 then (s, Reply.refusal .badField)
  else
    match s.findCondition tag.toNat with
    | none => (s, Reply.refusal .notFound)
    | some _ => (s.freeCondition tag.toNat, { status := .ok, body := [] })

/-- COND_RETIRE (R157). -/
def execCondRetire (tag : U16) (s : State) : Host.Outcome State Fault Refusal := .next (s.exchange 5 (actCondRetire tag))

/-- The severities as carried. -/
def carriedSeverity (b : SeverityFields) : SeverityMap :=
  { forBreak := b.forBreak.toNat, forBend := b.forBend.toNat, forLoss := b.forLoss.toNat
    forDrift := b.forDrift.toNat, forReflection := b.forReflection.toNat }

/-- The severities as stored: at most 3 each (R143). -/
def SeverityMap.stored (m : SeverityMap) : SeverityMap :=
  { forBreak := min m.forBreak 3, forBend := min m.forBend 3, forLoss := min m.forLoss 3
    forDrift := min m.forDrift 3, forReflection := min m.forReflection 3 }

/-- The act of SEVERITY_SET (R143). -/
def actSeveritySet (b : SeverityFields) (s : State) : State × Reply :=
  let m := (carriedSeverity b).stored
  ({ s with table := { s.table with severity := m } },
    { status := takenStatus (m != carriedSeverity b), body := severityBytes m })

/-- SEVERITY_SET (R143). -/
def execSeveritySet (b : SeverityFields) (s : State) : Host.Outcome State Fault Refusal :=
  .next (s.exchange 8 (actSeveritySet b))

end Sys2Proof.Machine
end

