-- ==== Sys2Proof/Machine/Scheduler.lean ====
section
/-! DEFINITION. The window events and their reach to the channels (R161 to R166, R88, R89), and the dispatch pass: the
choice of jobs, their dispatch, and pre-emption (R174 to R181). -/

namespace Sys2Proof.Machine

/-! ### Traces (R85, R86) -/

/-- The sums of `n` groups of `s` samples (R85). -/
def groupSums (s : Nat) : Nat → List Nat → List Nat
  | 0, _ => []
  | n + 1, samples => (samples.take s).sum :: groupSums s n (samples.drop s)

/-- The level trace of an accumulator after `shots` shots: the level of each mean, formed by truncation (R86). -/
def levelTrace (snapshot : Snapshot) (shots : Nat) (accumulator : List Nat) : Trace :=
  { levels := accumulator.map (fun sum => levelOf (sum / (shots * snapshot.profile.spacing)))
    shots := shots
    points := snapshot.profile.pointCount }

/-- The accumulator at the start of an acquisition: a sum of 0 for every point (R84). -/
def clearedSums (snapshot : Snapshot) : List Nat := List.replicate snapshot.profile.pointCount 0

/-! ### Window open (R164, R165) -/

/-- A time of day is inside the window (R161). -/
def insideWindow (t o c : Nat) : Bool :=
  if o = c then false else if o < c then o ≤ t && t < c else o ≤ t || t < c

/-- The span is due in the window of this number (R165). -/
def SpanRecord.due (window : Nat) (r : SpanRecord) : Bool := window % r.interval == r.phase

/-- The span is given a SCHEDULED job of class `c` at a window open (R164). -/
def State.queuesAtOpen (s : State) (window : Nat) (c : Fin 4) (r : SpanRecord) : Bool :=
  r.state == .active && r.due window && r.cls == c && (s.jobPlace r.id).isNone

/-- A class queue with the due spans of its class at its tail, in ascending identifier (R164). -/
def State.openedQueue (s : State) (window : Nat) (c : Fin 4) : List Nat :=
  s.sched.classQueues.get c ++ (s.spans.filter (s.queuesAtOpen window c)).map SpanRecord.id

/-- The channel's verify place after a window open (R75, R164). -/
def State.openedVerifyPlace (s : State) (ch : Letter) : Bool :=
  let b := s.banks.get ch
  s.sched.verifyPlaces.get ch ||
    (!s.hasVerifyJob ch && s.present ch && b.service == .inService && b.coil.length != 0)

/-- Every weighted class's credit at its weight; a strict class's weight is 0, and so is its credit (R173). -/
def Scheduler.reload (q : Scheduler) : Scheduler :=
  { q with classes := q.classes.map (fun c => { c with credit := c.weight }) }

/-- The scheduler's part of a window open: verify jobs, the due spans' jobs, the credits, dispatch called for (R164). -/
def State.openedScheduler (s : State) (window : Nat) : Scheduler :=
  { classQueues :=
      { x0 := s.openedQueue window 0, x1 := s.openedQueue window 1, x2 := s.openedQueue window 2
        x3 := s.openedQueue window 3 }
    demandQueue := s.sched.demandQueue
    verifyPlaces := { a := s.openedVerifyPlace .A, b := s.openedVerifyPlace .B }
    classes := s.sched.reload.classes
    dispatchCalled := true }

/-- Steps 1 to 4 of the window-open event (R164): the window OPEN with the next number, and what it queues. -/
def State.raiseWindow (s : State) : State :=
  let window := wrapSucc s.timeBase.windowNumber
  { s with
    timeBase := { s.timeBase with windowOpen := true, windowNumber := window }
    sched := s.openedScheduler window }

/-! ### Window close (R166, R88, R89) -/

/-- MISSED set on every span whose SCHEDULED job is discarded (R22). -/
def Entry.missIfIn (ids : List Nat) : Entry → Entry
  | .span r => if ids.contains r.id then .span r.miss else .span r
  | .vacated i => .vacated i

/-- MISSED set on these spans (R22). -/
def State.missAll (s : State) (ids : List Nat) : State := { s with directory := s.directory.map (Entry.missIfIn ids) }

/-- The queued SCHEDULED jobs and verify jobs discarded (R166). -/
def State.discardQueued (s : State) : State :=
  let s1 := s.missAll s.sched.classQueues.toList.flatten
  { s1 with sched := { s1.sched with classQueues := ⟨[], [], [], []⟩, verifyPlaces := ⟨false, false⟩ } }

/-- The 1310 nm step dropped from a DUAL job before it has begun: SINGLE plan, SINGLE flag, the 1310 buffer freed (R88). -/
def State.drop1310 (s : State) (ch : Letter) (stage : Stage) (f : Flight) : State :=
  (s.setActivity ch (.busy stage { f with plan := .single, single := true })).free1310 f.work.id

/-- The 1310 nm acquisition cut at a window close, by the shots done (R89). A job whose last shot is already accumulated
has completed its acquisition, so its trace is whole and has no SHORT flag (log entry 13). -/
def State.cut1310 (s : State) (ch : Letter) (f : Flight) : State :=
  if 64 ≤ f.shotsDone then
    (s.fillBuffer f.work.id .nm1310 (levelTrace f.snapshot f.shotsDone (s.channels.get ch).accumulator)).handOn ch
      { f with short := f.short || decide (f.shotsDone < f.snapshot.shots) }
  else (s.free1310 f.work.id).handOn ch { f with plan := .single, single := true }

/-- A window close at one channel (R88, R89). -/
def State.closeAtChannel (s : State) (ch : Letter) : State :=
  match (s.channels.get ch).activity with
  | .idle => s
  | .inhibited => s
  | .busy (.firing1310 _) f => s.cut1310 ch f
  | .busy .switching f => if f.plan = .dual then s.drop1310 ch .switching f else s
  | .busy (.guard due) f => if f.plan = .dual then s.drop1310 ch (.guard due) f else s
  | .busy (.firing1625 since) f => if f.plan = .dual then s.drop1310 ch (.firing1625 since) f else s

/-- The channel hands its job on at a window close (R89). -/
def State.handsOnAtClose (s : State) (ch : Letter) : Bool :=
  match (s.channels.get ch).activity with
  | .busy (.firing1310 _) _ => true
  | .busy .switching _ => false
  | .busy (.guard _) _ => false
  | .busy (.firing1625 _) _ => false
  | .idle => false
  | .inhibited => false

/-- Whether channel B is to be taken before channel A, where the spec lets either go first (R93, R100, log entry 7). -/
def State.bFirst (s : State) : Bool := Config.eitherFirst s.draws

/-- One draw of a free value taken (log entries 7 and 27). -/
def State.drawn (s : State) : State := { s with draws := s.draws + 1 }

/-- Both channels taken in the order that the draw gives. -/
def State.eitherOrder (s : State) (f : State → Letter → State) : State :=
  if s.bFirst then f (f s.drawn .B) .A else f (f s.drawn .A) .B

/-- A window close at the channels. Where both hand on, either may join the analysis queue first (R100). -/
def State.closeAtChannels (s : State) : State :=
  if s.handsOnAtClose .A && s.handsOnAtClose .B then s.eitherOrder State.closeAtChannel
  else (s.closeAtChannel .A).closeAtChannel .B

/-- The window-close event (R166): the queues first, then the channels, and a dispatch pass called for. -/
def State.closeWindow (s : State) : State :=
  let s1 : State := { s with timeBase := { s.timeBase with windowOpen := false } }
  s1.discardQueued.closeAtChannels.callDispatch

/-! ### Eligibility (R81, R175) -/

/-- The plan that a job would take on a channel (R81). -/
def State.planFor (s : State) (ch : Letter) : Job → Plan
  | .test _ _ => if s.timeBase.windowOpen && s.fitted ch then .dual else .single
  | .verify _ => .single

/-- The buffers that a plan needs (R81). -/
def Plan.buffers : Plan → Nat
  | .dual => 2
  | .single => 1

/-- The bank and position that a job needs now (R4, R62). -/
def State.portOf (s : State) : Job → Option (Letter × Nat)
  | .test _ id => (s.findSpan id).map (fun r => (r.bank, r.position))
  | .verify ch => some (ch, 0)

/-- The bank may be taken by this channel (R62, R175). -/
def State.bankFree (s : State) (ch l : Letter) : Bool :=
  let b := s.banks.get l
  s.present l && b.service == .inService && (b.holder == none || b.holder == some ch)

/-- The job is not a verify job of the other channel. -/
def Job.runsOn (ch : Letter) : Job → Bool
  | .test _ _ => true
  | .verify own => own == ch

/-- The job is eligible for the channel (R175). -/
def State.eligible (s : State) (ch : Letter) (j : Job) : Bool :=
  !s.channels.a.activity.isInhibited && !s.channels.b.activity.isInhibited &&
    (match s.portOf j with
      | some (l, _) => s.bankFree ch l
      | none => false) &&
    (s.planFor ch j).buffers ≤ s.freeBufferCount && j.runsOn ch

/-! ### The choice for a channel (R176, R177) -/

/-- The job in the demand queue's entry. -/
def DemandJob.job (d : DemandJob) : Job := .test (if d.learn then .learn else .demand) d.span

/-- The channel's own verify job, if its place holds one that is eligible. -/
def State.verifyChoice (s : State) (ch : Letter) : Option Job :=
  if s.sched.verifyPlaces.get ch && s.eligible ch (.verify ch) then some (.verify ch) else none

/-- The eligible job nearest the head of the demand queue. -/
def State.demandChoice (s : State) (ch : Letter) : Option Job :=
  (s.sched.demandQueue.map DemandJob.job).find? (s.eligible ch)

/-- The eligible job nearest the head of a class queue. -/
def State.classChoice (s : State) (ch : Letter) (c : Fin 4) : Option Job :=
  ((s.sched.classQueues.get c).map (fun id => Job.test (.scheduled c) id)).find? (s.eligible ch)

/-- The four classes in ascending number. -/
def classNumbers : List (Fin 4) := [0, 1, 2, 3]

/-- The job of the lowest strict class that has an eligible one (R176). -/
def State.strictChoice (s : State) (ch : Letter) : Option Job :=
  (classNumbers.filter (fun c => (s.sched.classes.get c).weight == 0)).findSome? (s.classChoice ch)

/-- The weighted classes with an eligible job (R177). -/
def State.weightedClasses (s : State) (ch : Letter) : List (Fin 4) :=
  classNumbers.filter (fun c => (s.sched.classes.get c).weight != 0 && (s.classChoice ch c).isSome)

/-- One credit of the class spent (R177). -/
def Scheduler.spend (q : Scheduler) (c : Fin 4) : Scheduler :=
  let k := q.classes.get c
  { q with classes := q.classes.set c { k with credit := k.credit - 1 } }

/-- What the scheduler chooses for a channel, with the credits as the choice leaves them. -/
structure Choice where
  sched : Scheduler
  job   : Option Job
deriving DecidableEq, Repr

/-- The weighted step: the lowest-numbered class with an eligible job and credit; where every one of them has spent its
credit, all credits are reloaded first (R177). -/
def State.weightedChoice (s : State) (ch : Letter) : Choice :=
  let classes := s.weightedClasses ch
  match classes.find? (fun c => 0 < (s.sched.classes.get c).credit) with
  | some c => { sched := s.sched.spend c, job := s.classChoice ch c }
  | none =>
    match classes with
    | c :: _ => { sched := s.sched.reload.spend c, job := s.classChoice ch c }
    | [] => { sched := s.sched, job := none }

/-- The choice for a channel: the first of the four steps of R176 that yields an eligible job. -/
def State.choose (s : State) (ch : Letter) : Choice :=
  match ((s.verifyChoice ch).or (s.demandChoice ch)).or (s.strictChoice ch) with
  | some j => { sched := s.sched, job := some j }
  | none => s.weightedChoice ch

/-! ### Dispatch (R178) -/

/-- The job leaves its queue or verify place (R178). -/
def State.unqueue (s : State) : Job → State
  | .test (.scheduled _) id => s.leaveClassQueue id
  | .test .demand id => s.leaveDemandQueue id
  | .test .learn id => s.leaveDemandQueue id
  | .verify ch => { s with sched := { s.sched with verifyPlaces := s.sched.verifyPlaces.set ch false } }

/-- What a job carries once dispatched: the span's revision, or the coil copy (R178). -/
def State.workOf (s : State) : Job → Work
  | .test kind id => .test kind id (((s.findSpan id).map SpanRecord.revision).getD 0)
  | .verify ch => .verify ch (s.banks.get ch).coil

/-- The profile that a job uses: its span's, or profile 7 (R47). -/
def State.profileOf (s : State) : Job → Fin 8
  | .test _ id => ((s.findSpan id).map SpanRecord.profile).getD 0
  | .verify _ => 7

/-- The record of the job at dispatch (R178). -/
def State.flightOf (s : State) (ch : Letter) (j : Job) : Flight :=
  { work := s.workOf j
    dispatchTime := s.now
    channel := ch
    snapshot := snapshotOf (s.profileOf j) (s.profiles.get (s.profileOf j))
    plan := s.planFor ch j
    shotsDone := 0
    short := false
    single := false
    live := false
    recorded := none
    cancelled := false }

/-- A job dispatched to a channel in one act: it leaves its queue, takes buffers and snapshots, and the channel takes its
bank (R178). `senses` is what the position senses report, for a settle completion at the take (R63). A job whose span is
gone is left queued. -/
def State.dispatch (s : State) (ch : Letter) (j : Job) (senses : Pair (Option Nat)) : State :=
  match s.portOf j with
  | none => s
  | some (l, position) =>
    let s1 := (s.unqueue j).takeBuffers j.id (s.planFor ch j)
    (s1.setActivity ch (.busy .switching (s.flightOf ch j))).takeBank ch l position (senses.get l)

/-- A channel considered in a pass: an IDLE channel takes at most one job (R174, R176). -/
def State.considerChannel (s : State) (senses : Pair (Option Nat)) (ch : Letter) : State :=
  if (s.channels.get ch).activity.isIdle then
    let choice := s.choose ch
    match choice.job with
    | some j => ({ s with sched := choice.sched } : State).dispatch ch j senses
    | none => s
  else s

/-! ### Pre-emption (R180, R181) -/

/-- A job that may be pre-empted, where it runs. -/
structure Victim where
  channel      : Letter
  cls          : Fin 4
  span         : Nat
  dispatchTime : Nat
deriving DecidableEq, Repr

/-- The job at the channel as a victim of this DEMAND job, if it qualifies: SCHEDULED, of a pre-emptible class, and the
DEMAND job would be eligible with the channel, its bank and its buffers free (R180). -/
def State.victimAt (s : State) (demand : Nat) (ch : Letter) : Option Victim :=
  match (s.channels.get ch).activity with
  | .busy _ f =>
    match f.work with
    | .test (.scheduled c) id _ =>
      if (s.sched.classes.get c).preemptible && (s.abortChannel ch).eligible ch (.test .demand demand) then
        some { channel := ch, cls := c, span := id, dispatchTime := f.dispatchTime }
      else none
    | .test .demand _ _ => none
    | .test .learn _ _ => none
    | .verify _ _ => none
  | .idle => none
  | .inhibited => none

/-- The victim for a DEMAND job: of the highest class, then the later dispatched, then the one on channel B (R180). -/
def State.victimFor (s : State) (demand : Nat) : Option Victim :=
  match s.victimAt demand .A, s.victimAt demand .B with
  | some a, some b =>
    if a.cls.val < b.cls.val ∨ (a.cls = b.cls ∧ a.dispatchTime ≤ b.dispatchTime) then some b else some a
  | some a, none => some a
  | none, some b => some b
  | none, none => none

/-- Pre-emption considered for one DEMAND job (R180, R181). -/
def State.preemptFor (senses : Pair (Option Nat)) (s : State) (demand : Nat) : State :=
  match s.victimFor demand with
  | none => s
  | some v =>
    ((s.abortChannel v.channel).requeueScheduled v.cls v.span).dispatch v.channel (.test .demand demand) senses

/-- The spans of the DEMAND jobs in the demand queue, head first (R180). -/
def State.demandSpans (s : State) : List Nat :=
  (s.sched.demandQueue.filter (fun d => !d.learn)).map DemandJob.span

/-- Pre-emption considered after the channels, while a window is open (R180). -/
def State.preempt (s : State) (senses : Pair (Option Nat)) : State :=
  if s.timeBase.windowOpen then s.demandSpans.foldl (State.preemptFor senses) s else s

/-- A dispatch pass (R174): the call is answered, channel A and then channel B are considered, and then pre-emption. The
model's clock moves on by 1 ns, so that jobs of two passes have different dispatch times (log entry 4). -/
def State.dispatchPass (s : State) (senses : Pair (Option Nat)) : State :=
  let s0 : State := { s with sched := { s.sched with dispatchCalled := false } }
  let s1 := ((s0.considerChannel senses .A).considerChannel senses .B).preempt senses
  { s1 with now := s1.now + 1 }

/-! ### The test of the window (R161) -/

/-- What the position senses report at this draw, in a pass that no command brings a report for (log entry 27). -/
def State.drawnSenses (s : State) : Pair (Option Nat) := senseValues (Config.senseA s.draws) (Config.senseB s.draws)

/-- The span that a SPAN_HOLD reaches together with the event under way (R14), if there is one: while READY is high, the
ACTIVE span of a SPAN_HOLD that waits directly behind it. Requests come one at a time (R185), so it is one span at most
(DESIGN CHOICE, log entry 28). -/
def State.heldTogether (s : State) : List Nat :=
  match s.pending with
  | .spanHold id :: _ =>
    if s.ready && (s.findSpan id.toNat).any (fun r => r.state == .active) then [id.toNat] else []
  | _ => []

/-- The class queues without the jobs of these spans. -/
def State.setAside (s : State) (ids : List Nat) : State :=
  { s with sched := { s.sched with
      classQueues := s.sched.classQueues.map (fun q => q.filter (fun i => !ids.contains i)) } }

/-- The jobs of these spans, as `queues` holds them, put back in their class queues behind the others. -/
def State.putBack (s : State) (ids : List Nat) (queues : Quad (List Nat)) : State :=
  let kept := queues.map (fun q => q.filter (fun i => ids.contains i))
  let now := s.sched.classQueues
  { s with sched := { s.sched with
      classQueues :=
        { x0 := now.x0 ++ kept.x0, x1 := now.x1 ++ kept.x1, x2 := now.x2 ++ kept.x2, x3 := now.x3 ++ kept.x3 } } }

/-- The window-open event, one act (R164): steps 1 to 4, and then a dispatch pass, in which the position senses report what
is drawn (log entry 27). `held` are the spans that a SPAN_HOLD reaches together with the open: R164 leaves that case to R14,
by which the hold finds the job still QUEUED and removes it, so the pass passes over their jobs (log entry 28). -/
def State.openWindow (s : State) (held : List Nat) : State :=
  let opened := s.raiseWindow.drawn
  ((opened.setAside held).dispatchPass s.drawnSenses).putBack held opened.sched.classQueues

/-- The window state made to agree with the time of day (R161); `held` are the spans that a SPAN_HOLD reaches together with
the test. -/
def State.retestWindow (s : State) (held : List Nat) : State :=
  let inside := insideWindow s.timeBase.timeOfDay s.timeBase.openTime s.timeBase.closeTime
  if inside && !s.timeBase.windowOpen then s.openWindow held
  else if !inside && s.timeBase.windowOpen then s.closeWindow
  else s

end Sys2Proof.Machine
end

