-- ==== Sys2Proof/Machine/LinkRequests.lean ====
section
/-! DEFINITION. The requests and periods of the link interface (chapter 10): STATUS_GET, CHANGES_READ, ATTENTION_SET,
RESTART, FRAME_REFUSED, READ_PERIOD, IGNORED_PERIOD. -/

namespace Sys2Proof.Machine

/-! ### STATUS_GET and ATTENTION_SET (R196, R192) -/

/-- The act of STATUS_GET (R196). -/
def actStatusGet (s : State) : State × Reply := (s, { status := .ok, body := statusSummaryBytes s })

/-- STATUS_GET (R196). -/
def execStatusGet (s : State) : Host.Outcome State Fault Refusal := .next (s.exchange 3 actStatusGet)

/-- The act of ATTENTION_SET (R192). -/
def actAttentionSet (span condition unit : Byte) (s : State) : State × Reply :=
  match boolOfByte span, boolOfByte condition, boolOfByte unit with
  | some a, some b, some c =>
    let e : Enables := { span := a, condition := b, unit := c }
    ({ s with link := { s.link with enables := e } }, { status := .ok, body := enableBytes e })
  | _, _, _ => (s, Reply.refusal .badField)

/-- ATTENTION_SET (R192). -/
def execAttentionSet (span condition unit : Byte) (s : State) : Host.Outcome State Fault Refusal :=
  .next (s.exchange 6 (actAttentionSet span condition unit))

/-! ### CHANGES_READ (R193, R194) -/

/-- The entry after its span, or its vacated report, is returned: a span's mark is cleared, a vacated report leaves. -/
def Entry.returned : Entry → Option Entry
  | .span r => some (.span { r with mark := false })
  | .vacated _ => none

/-- The entry is among the items. -/
def Entry.among (items : List Item) (e : Entry) : Bool := items.contains (.span e)

/-- The condition after it is returned: an open one has its mark cleared, a RETIRED one is freed (R158). -/
def Condition.returned (c : Condition) : Option Condition :=
  if c.state = .retired then none else some { c with mark := false }

/-- The condition is among the items. -/
def Condition.among (items : List Item) (c : Condition) : Bool := items.contains (.condition c)

/-- A channel's mark cleared if it is among the items. -/
def Channel.afterRead (items : List Item) (l : Letter) (c : Channel) : Channel :=
  if items.contains (.channel l) then { c with mark := false } else c

/-- A bank's mark cleared if it is among the items. -/
def Bank.afterRead (items : List Item) (l : Letter) (b : Bank) : Bank :=
  if items.contains (.bank l) then { b with mark := false } else b

/-- The state after the selected items are returned (R194). -/
def State.returnItems (s : State) (items : List Item) : State :=
  { s with
    directory := s.directory.filterMap (fun e => if e.among items then e.returned else some e)
    table := { s.table with
      conditions := s.table.conditions.filterMap (fun c => if c.among items then c.returned else some c) }
    channels := { a := s.channels.a.afterRead items .A, b := s.channels.b.afterRead items .B }
    banks := { a := s.banks.a.afterRead items .A, b := s.banks.b.afterRead items .B } }

/-- The items that a CHANGES_READ selects: the first 16 of the enabled categories' marked items (R193). -/
def State.selected (s : State) : List Item := s.enabledItems.take 16

/-- The act of CHANGES_READ (R193, R194): number of entries, number left, entries (R203). -/
def actChangesRead (s : State) : State × Reply :=
  (s.returnItems s.selected,
    { status := .ok
      body := [byte s.selected.length] ++ be16 (s.enabledItems.length - s.selected.length) ++
        s.selected.flatMap (itemBytes s) })

/-- CHANGES_READ (R193). -/
def execChangesRead (s : State) : Host.Outcome State Fault Refusal := .next (s.exchange 3 actChangesRead)

/-! ### RESTART (R197 and the rules it names) -/

/-- The span of a SCHEDULED job in flight. -/
def Flight.scheduledSpan (f : Flight) : Option Nat :=
  match f.work with
  | .test (.scheduled _) id _ => some id
  | .test .demand _ _ => none
  | .test .learn _ _ => none
  | .verify _ _ => none

/-- The spans that have a SCHEDULED job, in any stage (R27). -/
def State.scheduledSpans (s : State) : List Nat :=
  s.sched.classQueues.toList.flatten ++ s.flights.filterMap Flight.scheduledSpan

/-- The spans in RETIRING. -/
def State.retiringSpans (s : State) : List Nat :=
  (s.spans.filter (fun r => r.state == .retiring)).map SpanRecord.id

/-- The record after RESTART: MISSED where a SCHEDULED job is removed, and back from LEARNING (R27). -/
def SpanRecord.restarted (missed : List Nat) (r : SpanRecord) : SpanRecord :=
  (if missed.contains r.id then r.miss else r).endLearn

/-- The entry after RESTART: a span in RETIRING becomes EMPTY (R20, R27). -/
def Entry.restarted (missed : List Nat) : Entry → Entry
  | .span r => if r.state = .retiring then .vacated r.id else .span (r.restarted missed)
  | .vacated i => .vacated i

/-- The condition after RESTART: retired if its span becomes EMPTY (R152, R159). -/
def Condition.restarted (retiring : List Nat) (c : Condition) : Condition :=
  if retiring.contains c.span ∧ c.state.isOpen = true then { c with state := .retired, mark := true } else c

/-- The channel after RESTART: a job at it is aborted (R98). -/
def Channel.restarted (rest : Activity) (c : Channel) : Channel :=
  match c.activity with
  | .busy _ _ => { c with activity := rest, accumulator := [] }
  | .idle => c
  | .inhibited => c

/-- The scheduler after RESTART: no job, every weighted class's credit at its weight (R183); what is freed is offered to
dispatch. -/
def Scheduler.restarted (freed : Bool) (q : Scheduler) : Scheduler :=
  { q.reload with
    classQueues := ⟨[], [], [], []⟩
    demandQueue := []
    verifyPlaces := ⟨false, false⟩
    dispatchCalled := q.dispatchCalled || freed }

/-- The state after RESTART: every block restarts under its own rule (R27, R43, R77, R98, R106, R159, R183). -/
def State.restarted (s : State) : State :=
  { s with
    directory := s.directory.map (Entry.restarted s.scheduledSpans)
    sched := s.sched.restarted (s.buffers.toList.any Option.isSome)
    banks := s.banks.map (fun b => { b with holder := none })
    channels := s.channels.map (Channel.restarted s.restActivity)
    buffers := ⟨none, none, none, none⟩
    engine := { queue := [], current := none }
    table := { s.table with conditions := s.table.conditions.map (Condition.restarted s.retiringSpans) } }

/-- The act of RESTART (R197). -/
def actRestart (s : State) : State × Reply := (s.restarted, { status := .ok, body := [] })

/-- RESTART (R197). -/
def execRestart (s : State) : Host.Outcome State Fault Refusal := .next (s.exchange 3 actRestart)

/-! ### Periods that carry no request (R185, R186, R188) -/

/-- FRAME_REFUSED (R186): the frame is answered with its refusal and reaches no block. Bytes that are no refused request
frame leave the state as it is (log entry 16). -/
def execFrameRefused (frame : List Byte) (s : State) : Host.Outcome State Fault Refusal :=
  if frame.headD 0 = 0 then .next s
  else
    match checkFrame frame with
    | .refused status => .next (s.exchange frame.length (fun t => (t, Reply.refusal status)))
    | .passed _ _ => .next s

/-- The bytes clocked out in a read of `clocked` bytes: 0xFF, then the response frame, then 0xFF (R188). -/
def readBytes (clocked : Nat) (frame : List Byte) : List Byte :=
  0xFF :: ((frame.take (clocked - 1)) ++ idleBytes (clocked - 1 - frame.length))

/-- The link after a read period: the response is consumed by a read of the whole frame, and stays pending otherwise
(R188). -/
def Link.read (l : Link) (clocked : Nat) : Link :=
  match l.response with
  | none => { l with dataOut := idleBytes clocked }
  | some r =>
    if r.frame.length + 1 ≤ clocked then
      { l with response := none, state := .readyIdle, dataOut := readBytes clocked r.frame }
    else { l with state := .responseWaiting, dataOut := readBytes clocked r.frame }

/-- READ_PERIOD (R188): ignored while READY is low (R185); a period in which no byte is clocked is empty and changes
nothing. -/
def execReadPeriod (clocked : Nat) (s : State) : Host.Outcome State Fault Refusal :=
  if s.ready = false then .next (s.ignorePeriod clocked)
  else if clocked = 0 then .next s
  else .next { s with link := s.link.read clocked }

/-- IGNORED_PERIOD (R185): every byte clocked out reads 0xFF, and nothing else changes. -/
def execIgnoredPeriod (clocked : Nat) (s : State) : Host.Outcome State Fault Refusal := .next (s.ignorePeriod clocked)

end Sys2Proof.Machine
end

