-- ==== Sys2Proof/Machine/ResetEvents.lean ====
section
/-! DEFINITION. The resets (R184 and each chapter's reset rule) and the INHIBIT input (R91 to R95). -/

namespace Sys2Proof.Machine

/-! ### Resets -/

/-- The part after a reset, with the model's own queue and count of draws as they stand (log entry 23). -/
def State.resetTo (s : State) (straps : Straps) (inhibit : Bool) : State :=
  { State.afterReset straps inhibit with draws := s.draws, pending := s.pending }

/-- POWER_ON (R184): one instant, as RESET_PIN is (DESIGN CHOICE, log entry 29). -/
def execPowerOn (straps : Straps) (inhibit : Bool) (s : State) : Host.Outcome State Fault Refusal :=
  .next (s.resetTo straps inhibit)

/-- RESET_PIN (R184). DESIGN CHOICE: the assertion of the pin and its end are one instant, "the reset", so no command comes
while the pin is held and READY low; due times count from that instant, and the straps and the INHIBIT level are those at it
(log entry 29). -/
def execResetPin (straps : Straps) (inhibit : Bool) (s : State) : Host.Outcome State Fault Refusal :=
  .next (s.resetTo straps inhibit)

/-! ### INHIBIT (R92 to R94) -/

/-- The channel's mark set. -/
def State.markChannel (s : State) (ch : Letter) : State := s.setChannel ch { s.channels.get ch with mark := true }

/-- A job aborted by INHIBIT, returned or ended according to its kind (R93). -/
def State.returnJob (s : State) (w : Work) : State :=
  match w with
  | .test (.scheduled c) id _ =>
    if s.timeBase.windowOpen then s.requeueScheduled c id else s.modifySpan id SpanRecord.miss
  | .test .demand id _ => s.headOfDemandQueue { span := id, learn := false }
  | .test .learn id _ => s.headOfDemandQueue { span := id, learn := true }
  | .verify _ _ => s

/-- INHIBIT asserted at one channel (R92). -/
def State.inhibitChannel (s : State) (ch : Letter) : State :=
  match (s.channels.get ch).activity with
  | .idle => (s.setActivity ch .inhibited).markChannel ch
  | .busy _ f => ((s.dropFlight ch f .inhibited).markChannel ch).returnJob f.work
  | .inhibited => s

/-- The queues to whose head an aborted job can return. -/
inductive ReturnQueue where
  | cls (c : Fin 4)
  | demand
deriving DecidableEq, Repr

/-- The queue that a job returns to at an assertion of INHIBIT, if it returns (R93). -/
def State.returnQueue (s : State) (w : Work) : Option ReturnQueue :=
  match w with
  | .test (.scheduled c) id _ =>
    if s.timeBase.windowOpen then some (.cls (((s.findSpan id).map SpanRecord.cls).getD c)) else none
  | .test .demand _ _ => some .demand
  | .test .learn _ _ => some .demand
  | .verify _ _ => none

/-- The queue that the channel's job returns to, if it has one that returns. -/
def State.channelReturns (s : State) (ch : Letter) : Option ReturnQueue :=
  (s.channels.get ch).activity.flight?.bind (fun f => s.returnQueue f.work)

/-- Both channels' jobs return to the head of one queue, so either may go first (R93). -/
def State.sameReturn (s : State) : Bool :=
  (s.channelReturns .A).isSome && s.channelReturns .A == s.channelReturns .B

/-- INHIBIT_ASSERTED (R92). -/
def execInhibitAsserted (s : State) : Host.Outcome State Fault Refusal :=
  let s1 : State := { s with inputs := { s.inputs with inhibit := true } }
  if s1.sameReturn then .next (s1.eitherOrder State.inhibitChannel)
  else .next ((s1.inhibitChannel .A).inhibitChannel .B)

/-- INHIBIT released at one channel: IDLE, with its mark set (R94). -/
def Channel.released (c : Channel) : Channel :=
  match c.activity with
  | .inhibited => { c with activity := .idle, mark := true }
  | .idle => c
  | .busy _ _ => c

/-- INHIBIT_RELEASED (R94): offered to dispatch. A release while the input is not asserted is no event. -/
def execInhibitReleased (s : State) : Host.Outcome State Fault Refusal :=
  if s.inputs.inhibit then
    .next (({ s with inputs := { s.inputs with inhibit := false }, channels := s.channels.map Channel.released }
      : State).callDispatch)
  else .next s

end Sys2Proof.Machine
end

