-- ==== Sys2Proof/Machine/SettingRequests.lean ====
section
/-! DEFINITION. The setting requests: PROFILE_SET, PROFILE_GET (chapter 3), GUARD_SET, COIL_SET, BANK_RESTORE
(chapter 4), CLOCK_SET, WINDOW_SET, CLASS_SET (chapter 9). -/

namespace Sys2Proof.Machine

/-! ### Profiles (R54 to R57) -/

/-- The spacing factors that a profile may have (R44). -/
def spacings : List Nat := [1, 2, 4, 8, 16, 32, 64]

/-- The seven fields as carried (R202). -/
def carriedProfile (b : ProfileFields) : Profile :=
  { pulseCode := b.pulseCode.toNat, spacing := b.spacing.toNat, pointCount := b.pointCount.toNat
    shotExponent := b.shotExponent.toNat, window := b.window.toNat
    reflectiveThreshold := b.reflectiveThreshold.toNat, endMargin := b.endMargin.toNat }

/-- The seven fields as stored: the point count rounded down to a multiple of 256, then five fields clamped (R55). -/
def Profile.settled (p : Profile) : Profile :=
  { p with
    pointCount := clamp 512 16384 (p.pointCount / 256 * 256)
    shotExponent := clamp 6 16 p.shotExponent
    window := clamp 4 64 p.window
    reflectiveThreshold := clamp 200 6000 p.reflectiveThreshold
    endMargin := clamp 300 3000 p.endMargin }

/-- The act of PROFILE_SET (R54 to R56). -/
def actProfileSet (b : ProfileFields) (s : State) : State × Reply :=
  match finOfNat 8 b.number.toNat with
  | none => (s, Reply.refusal .badField)
  | some n =>
    if 5 < b.pulseCode.toNat ∨ spacings.contains b.spacing.toNat = false then (s, Reply.refusal .badField)
    else
      let p := (carriedProfile b).settled
      ({ s with profiles := s.profiles.set n p },
        { status := takenStatus (p != carriedProfile b), body := profileBytes n.val p })

/-- PROFILE_SET (R56). -/
def execProfileSet (b : ProfileFields) (s : State) : Host.Outcome State Fault Refusal :=
  .next (s.exchange 14 (actProfileSet b))

/-- The act of PROFILE_GET (R57). -/
def actProfileGet (number : Byte) (s : State) : State × Reply :=
  match finOfNat 8 number.toNat with
  | none => (s, Reply.refusal .badField)
  | some n => (s, { status := .ok, body := profileBytes n.val (s.profiles.get n) })

/-- PROFILE_GET (R57). -/
def execProfileGet (number : Byte) (s : State) : Host.Outcome State Fault Refusal :=
  .next (s.exchange 4 (actProfileGet number))

/-! ### The time base (R162, R163) -/

/-- One second, in ns (R160). -/
def secondNs : Nat := 1000000000

/-- The greatest time of day (R160). -/
def lastSecond : Nat := 86399

/-- The reply of CLOCK_SET and WINDOW_SET: the time base after the set and the window event it raised (R162). -/
def State.timeReply (s : State) : Reply := { status := .ok, body := timeBaseBytes s.timeBase }

/-- The state with the time of day set, the next advance one second later, and the window tested (R162). No other request
comes together with this one (R185, R187), so no span is held together with the test. -/
def State.withClock (s : State) (t : Nat) : State :=
  ({ s with timeBase := { s.timeBase with timeOfDay := t, nextAdvance := s.now + secondNs } } : State).retestWindow []

/-- The act of CLOCK_SET (R162). -/
def actClockSet (t : U32) (s : State) : State × Reply :=
  if lastSecond < t.toNat then (s, Reply.refusal .badField)
  else (s.withClock t.toNat, (s.withClock t.toNat).timeReply)

/-- CLOCK_SET (R162). -/
def execClockSet (t : U32) (s : State) : Host.Outcome State Fault Refusal := .next (s.exchange 7 (actClockSet t))

/-- The state with the open and close times set, and the window tested (R163), with no span held together with the test. -/
def State.withWindow (s : State) (o c : Nat) : State :=
  ({ s with timeBase := { s.timeBase with openTime := o, closeTime := c } } : State).retestWindow []

/-- The act of WINDOW_SET (R163). -/
def actWindowSet (o c : U32) (s : State) : State × Reply :=
  if lastSecond < o.toNat ∨ lastSecond < c.toNat then (s, Reply.refusal .badField)
  else (s.withWindow o.toNat c.toNat, (s.withWindow o.toNat c.toNat).timeReply)

/-- WINDOW_SET (R163). -/
def execWindowSet (o c : U32) (s : State) : Host.Outcome State Fault Refusal := .next (s.exchange 11 (actWindowSet o c))

/-! ### Classes (R173) -/

/-- The act of CLASS_SET (R173): the class byte is checked before the pre-emptible byte (R200); a taken one calls for
dispatch (R174). -/
def actClassSet (cls weight preemptible : Byte) (s : State) : State × Reply :=
  match finOfNat 4 cls.toNat, boolOfByte preemptible with
  | some c, some p =>
    let k : ClassSetting := { weight := min weight.toNat 15, preemptible := p, credit := min weight.toNat 15 }
    (({ s with sched := { s.sched with classes := s.sched.classes.set c k } } : State).callDispatch,
      { status := takenStatus (k.weight != weight.toNat), body := classBytes c.val k })
  | _, _ => (s, Reply.refusal .badField)

/-- CLASS_SET (R173). -/
def execClassSet (cls weight preemptible : Byte) (s : State) : Host.Outcome State Fault Refusal :=
  .next (s.exchange 6 (actClassSet cls weight preemptible))

/-! ### The guard and the coils (R73, R74) -/

/-- The thresholds as stored: each clamped, then the live threshold at most the overload threshold (R73). -/
def storedThresholds (overload live : Nat) : Thresholds :=
  { overload := clamp 1000 24082 overload, live := min (clamp 1000 24082 live) (clamp 1000 24082 overload) }

/-- The act of GUARD_SET (R73). -/
def actGuardSet (overload live : U16) (s : State) : State × Reply :=
  let t := storedThresholds overload.toNat live.toNat
  ({ s with thresholds := t },
    { status := takenStatus (t != { overload := overload.toNat, live := live.toNat }), body := thresholdBytes t })

/-- GUARD_SET (R73). -/
def execGuardSet (overload live : U16) (s : State) : Host.Outcome State Fault Refusal :=
  .next (s.exchange 7 (actGuardSet overload live))

/-- The coil record as stored (R74). -/
def storedCoil (length groupIndex : Nat) : Coil :=
  { length := min length maxDistance, groupIndex := clamp 14000 15000 groupIndex }

/-- The bank's coil record replaced, its mark set where the record changes (R74, R76). -/
def Bank.withCoil (b : Bank) (c : Coil) : Bank := { b with coil := c, mark := b.mark || c != b.coil }

/-- The queued verify job of a channel removed (R75). -/
def State.dropVerify (s : State) (ch : Letter) : State :=
  { s with sched := { s.sched with verifyPlaces := s.sched.verifyPlaces.set ch false } }

/-- The coil stored; a coil length of 0 removes the bank's queued verify job (R74, R75). -/
def State.storeCoil (s : State) (l : Letter) (c : Coil) : State :=
  let s1 := s.setBank l ((s.banks.get l).withCoil c)
  if c.length = 0 then s1.dropVerify l else s1

/-- The act of COIL_SET (R74). -/
def actCoilSet (bank : Byte) (length : U32) (groupIndex : U16) (s : State) : State × Reply :=
  match bankOfByte bank with
  | none => (s, Reply.refusal .badField)
  | some l =>
    if s.present l = false then (s, Reply.refusal .bankAbsent)
    else
      let c := storedCoil length.toNat groupIndex.toNat
      (s.storeCoil l c,
        { status := takenStatus (c != { length := length.toNat, groupIndex := groupIndex.toNat }), body := coilBytes l c })

/-- COIL_SET (R74). -/
def execCoilSet (bank : Byte) (length : U32) (groupIndex : U16) (s : State) : Host.Outcome State Fault Refusal :=
  .next (s.exchange 10 (actCoilSet bank length groupIndex))

/-! ### BANK_RESTORE (R68) -/

/-- The bank in service again, its mark set. -/
def Bank.restored (b : Bank) : Bank := { b with service := .inService, mark := true }

/-- An OUT_OF_SERVICE bank restored and driven to position 0: at once where the commanded position is 0, with what the
position sense reports, and otherwise in 30 ms (R68). -/
def State.restoreBank (s : State) (l : Letter) (sense : Option Nat) : State :=
  let b := (s.banks.get l).restored
  if b.commanded = 0 then ((s.setBank l b).settle l sense).callDispatch
  else (s.setBank l { b with commanded := 0, motion := .moving (s.now + settleNs) }).callDispatch

/-- The act of BANK_RESTORE (R68). -/
def actBankRestore (bank : Byte) (sense : Sense) (s : State) : State × Reply :=
  match bankOfByte bank with
  | none => (s, Reply.refusal .badField)
  | some l =>
    if s.present l = false then (s, Reply.refusal .bankAbsent)
    else if (s.banks.get l).service = .inService then (s, Reply.refusal .wrongState)
    else (s.restoreBank l (senseValue sense), { status := .ok, body := [] })

/-- BANK_RESTORE (R68). -/
def execBankRestore (bank : Byte) (sense : Sense) (s : State) : Host.Outcome State Fault Refusal :=
  .next (s.exchange 4 (actBankRestore bank sense))

end Sys2Proof.Machine
end

