-- ==== Sys2Proof/Machine/SpanRequests.lean ====
section
/-! DEFINITION. The span requests (chapter 1): SPAN_PUT, SPAN_GET, SPAN_BY_PORT, SPAN_NEXT, SPAN_HOLD, SPAN_RESUME,
SPAN_RETIRE, SPAN_LEARN. Each is an act on the state, carried by one exchange. -/

namespace Sys2Proof.Machine

/-! ### SPAN_PUT (R6 to R10) -/

/-- The checked fields, each in its range (R2, R6 step 2). -/
structure CheckedFields where
  bank     : Letter
  position : Nat
  profile  : Fin 8
  cls      : Fin 4
  interval : Nat
  phase    : Nat
deriving DecidableEq, Repr

/-- The checked fields of a SPAN_PUT, if every one is in its range (R6 step 2). -/
def checkedFields (b : SpanFields) : Option CheckedFields :=
  match bankOfByte b.bank, finOfNat 8 b.profile.toNat, finOfNat 4 b.cls.toNat with
  | some bank, some profile, some cls =>
    if 1 ≤ b.position.toNat ∧ b.position.toNat ≤ 60 ∧ 1 ≤ b.interval.toNat ∧ b.interval.toNat ≤ 7 ∧
        b.phase.toNat < b.interval.toNat then
      some
        { bank := bank, position := b.position.toNat, profile := profile, cls := cls, interval := b.interval.toNat,
          phase := b.phase.toNat }
    else none
  | _, _, _ => none

/-- The refusal of a port that is new to a span: bank B absent, or the port bound to another span (R6 steps 5 and 6). -/
def State.refusesPort (s : State) (bank : Letter) (position : Nat) : Option Status :=
  if s.present bank = false then some .bankAbsent
  else if (s.boundTo bank position).isSome then some .exists_
  else none

/-- The new record of a span (R8). -/
def createdSpan (id : Nat) (c : CheckedFields) (f : ClampedFields) : SpanRecord :=
  { id := id, state := .draft, resume := .draft, bank := c.bank, position := c.position, profile := c.profile
    cls := c.cls, interval := c.interval, phase := c.phase, clamped := f, revision := 0, landmarks := []
    lastOutcome := .none_, lastWindow := 0, lastEnd := none, missed := false, live := false, overflow := false
    dropped := 0, mark := true }

/-- The record with the host-written fields replaced (R9). -/
def SpanRecord.withFields (r : SpanRecord) (c : CheckedFields) (f : ClampedFields) : SpanRecord :=
  { r with
    bank := c.bank, position := c.position, profile := c.profile, cls := c.cls, interval := c.interval
    phase := c.phase, clamped := f }

/-- The flags that the selection names, cleared; clearing OVERFLOW also clears the dropped findings count (R24). -/
def SpanRecord.clearFlags (selection : Byte) (r : SpanRecord) : SpanRecord :=
  { r with
    missed := r.missed && !flagBit selection 0
    live := r.live && !flagBit selection 1
    overflow := r.overflow && !flagBit selection 2
    dropped := if flagBit selection 2 then 0 else r.dropped }

/-- The revision counted where an analysis field differs from the one held before (R10). -/
def SpanRecord.countRevision (before r : SpanRecord) : SpanRecord :=
  if r.profile = before.profile ∧ r.clamped = before.clamped then r else { r with revision := wrapSucc r.revision }

/-- The mark set where a stored value changed (R9). -/
def SpanRecord.markChange (before r : SpanRecord) : SpanRecord := if r = before then r else { r with mark := true }

/-- The record after an edit: fields, flags, revision, mark, in the order of R9. -/
def SpanRecord.edited (r : SpanRecord) (c : CheckedFields) (f : ClampedFields) (selection : Byte) : SpanRecord :=
  SpanRecord.markChange r (SpanRecord.countRevision r ((r.withFields c f).clearFlags selection))

/-- The edit moves the span's port. -/
def SpanRecord.moves (r : SpanRecord) (c : CheckedFields) : Bool := r.bank != c.bank || r.position != c.position

/-- The span's job is QUEUED. -/
def State.jobQueued (s : State) (id : Nat) : Bool :=
  match s.jobPlace id with
  | some p => !p.pastQueued
  | none => false

/-- The span's job has left QUEUED. -/
def State.jobPastQueued (s : State) (id : Nat) : Bool :=
  match s.jobPlace id with
  | some p => p.pastQueued
  | none => false

/-- The refusal of an edit, by the order of R6. -/
def State.refusesEdit (s : State) (r : SpanRecord) (c : CheckedFields) : Option Status :=
  if r.state = .retiring then some .wrongState
  else if r.moves c then
    if s.jobPastQueued r.id then some .spanBusy else s.refusesPort c.bank c.position
  else none

/-- The status and record of a taken SPAN_PUT (R7). -/
def putReply (b : SpanFields) (r : SpanRecord) : Reply :=
  { status := takenStatus (SpanClamp.clamped (SpanClamp.carried b) != SpanClamp.carried b), body := spanRecordBytes r }

/-- SPAN_PUT naming a span that exists (R9); a moved port of a QUEUED job calls for dispatch (R174). -/
def editSpan (s : State) (r : SpanRecord) (c : CheckedFields) (b : SpanFields) : State × Reply :=
  match s.refusesEdit r c with
  | some status => (s, Reply.refusal status)
  | none =>
    let r1 := r.edited c (SpanClamp.clamped (SpanClamp.carried b)) b.clearFlags
    let s1 := s.modifySpan r.id (fun _ => r1)
    (if r.moves c && s.jobQueued r.id then s1.callDispatch else s1, putReply b r1)

/-- The entry is a vacated report. -/
def Entry.isVacated : Entry → Bool
  | .span _ => false
  | .vacated _ => true

/-- A directory without the vacated report of this identifier, and without its lowest vacated report if it would still
hold 120 entries (R8). -/
def roomFor (id : Nat) (directory : List Entry) : List Entry :=
  let others := directory.filter (fun e => !(e.isVacated && e.id == id))
  if others.length < 120 then others else others.eraseP Entry.isVacated

/-- A new span in its place in the order (R3, R8). -/
def enter (r : SpanRecord) (directory : List Entry) : List Entry :=
  insertBy (fun a b => a.id ≤ b.id) (.span r) (roomFor r.id directory)

/-- The refusal of a creation, by the order of R6. -/
def State.refusesCreation (s : State) (c : CheckedFields) : Option Status :=
  if 120 ≤ s.spans.length then some .tableFull else s.refusesPort c.bank c.position

/-- SPAN_PUT naming an identifier that no span holds (R8). -/
def createSpan (s : State) (c : CheckedFields) (b : SpanFields) : State × Reply :=
  match s.refusesCreation c with
  | some status => (s, Reply.refusal status)
  | none =>
    let r := createdSpan b.identifier.toNat c (SpanClamp.clamped (SpanClamp.carried b))
    ({ s with directory := enter r s.directory }, putReply b r)

/-- The act of SPAN_PUT (R6). -/
def actSpanPut (b : SpanFields) (s : State) : State × Reply :=
  if b.identifier.toNat = 0 then (s, Reply.refusal .badField)
  else
    match checkedFields b with
    | none => (s, Reply.refusal .badField)
    | some c =>
      match s.findSpan b.identifier.toNat with
      | some r => editSpan s r c b
      | none => createSpan s c b

/-- SPAN_PUT (R6). -/
def execSpanPut (b : SpanFields) (s : State) : Host.Outcome State Fault Refusal :=
  .next (s.exchange 28 (actSpanPut b))

/-! ### Reading the directory (R11 to R13) -/

/-- The record of a span, or NOT_FOUND. -/
def recordReply : Option SpanRecord → Reply
  | some r => { status := .ok, body := spanRecordBytes r }
  | none => Reply.refusal .notFound

/-- The act of SPAN_GET (R11). -/
def actSpanGet (id : U16) (s : State) : State × Reply :=
  (s, if id.toNat = 0 then Reply.refusal .badField else recordReply (s.findSpan id.toNat))

/-- SPAN_GET (R11). -/
def execSpanGet (id : U16) (s : State) : Host.Outcome State Fault Refusal := .next (s.exchange 5 (actSpanGet id))

/-- The act of SPAN_BY_PORT (R12). -/
def actSpanByPort (bank position : Byte) (s : State) : State × Reply :=
  match bankOfByte bank with
  | none => (s, Reply.refusal .badField)
  | some l =>
    if position.toNat = 0 ∨ 60 < position.toNat then (s, Reply.refusal .badField)
    else if s.present l = false then (s, Reply.refusal .bankAbsent)
    else (s, recordReply (s.boundTo l position.toNat))

/-- SPAN_BY_PORT (R12). -/
def execSpanByPort (bank position : Byte) (s : State) : Host.Outcome State Fault Refusal :=
  .next (s.exchange 5 (actSpanByPort bank position))

/-- The span with the smallest identifier greater than this one: the first in the directory's order (R3, R13). -/
def State.spanAfter (s : State) (id : Nat) : Option SpanRecord := s.spans.find? (fun r => id < r.id)

/-- The act of SPAN_NEXT (R13). -/
def actSpanNext (id : U16) (s : State) : State × Reply := (s, recordReply (s.spanAfter id.toNat))

/-- SPAN_NEXT (R13). -/
def execSpanNext (id : U16) (s : State) : Host.Outcome State Fault Refusal := .next (s.exchange 5 (actSpanNext id))

/-! ### Holding, resuming and learning (R14 to R16) -/

/-- The span's state replaced, with its mark (R25). -/
def SpanRecord.goTo (state : SpanState) (r : SpanRecord) : SpanRecord := { r with state := state, mark := true }

/-- The span-state reply: the identifier and the state after the request (R201). -/
def stateReply (id : Nat) (state : SpanState) : Reply :=
  { status := .ok, body := spanStateBytes id (spanStateCode state) }

/-- The act of SPAN_HOLD (R14): a queued SCHEDULED job leaves its class queue. -/
def actSpanHold (id : U16) (s : State) : State × Reply :=
  match s.findSpan id.toNat with
  | none => (s, Reply.refusal .notFound)
  | some r =>
    if r.state = .active then
      ((s.leaveClassQueue id.toNat).modifySpan id.toNat (SpanRecord.goTo .held), stateReply id.toNat .held)
    else (s, Reply.refusal .wrongState)

/-- SPAN_HOLD (R14). -/
def execSpanHold (id : U16) (s : State) : Host.Outcome State Fault Refusal := .next (s.exchange 5 (actSpanHold id))

/-- SPAN_RESUME is taken on this span (R15). -/
def SpanRecord.resumable (r : SpanRecord) : Bool := r.state == .held || (r.state == .draft && hasFarEnd r.landmarks)

/-- The act of SPAN_RESUME (R15). -/
def actSpanResume (id : U16) (s : State) : State × Reply :=
  match s.findSpan id.toNat with
  | none => (s, Reply.refusal .notFound)
  | some r =>
    if r.resumable then (s.modifySpan id.toNat (SpanRecord.goTo .active), stateReply id.toNat .active)
    else (s, Reply.refusal .wrongState)

/-- SPAN_RESUME (R15). -/
def execSpanResume (id : U16) (s : State) : Host.Outcome State Fault Refusal := .next (s.exchange 5 (actSpanResume id))

/-- The span in LEARNING, the state it left kept as its resume state (R16). -/
def SpanRecord.beginLearn (r : SpanRecord) : SpanRecord := { r with state := .learning, resume := r.state, mark := true }

/-- The refusal of SPAN_LEARN on a span that exists, by the order of R16. -/
def State.refusesLearn (s : State) (r : SpanRecord) : Option Status :=
  if r.state = .learning ∨ r.state = .retiring then some .wrongState
  else if (s.jobPlace r.id).isSome then some .spanBusy
  else if 8 ≤ s.sched.demandQueue.length then some .queueFull
  else none

/-- The act of SPAN_LEARN (R16). -/
def actSpanLearn (id : U16) (s : State) : State × Reply :=
  match s.findSpan id.toNat with
  | none => (s, Reply.refusal .notFound)
  | some r =>
    match s.refusesLearn r with
    | some status => (s, Reply.refusal status)
    | none =>
      ((s.modifySpan id.toNat SpanRecord.beginLearn).tailOfDemandQueue { span := id.toNat, learn := true },
        stateReply id.toNat .learning)

/-- SPAN_LEARN (R16). -/
def execSpanLearn (id : U16) (s : State) : Host.Outcome State Fault Refusal := .next (s.exchange 5 (actSpanLearn id))

/-! ### Retiring (R18, R19) -/

/-- The reply of SPAN_RETIRE where the span is EMPTY after it (R18). -/
def emptyReply (id : Nat) : Reply := { status := .ok, body := spanStateBytes id 0 }

/-- SPAN_RETIRE on a span that is not RETIRING, by where its job stands (R18, R19). -/
def retireSpan (s : State) (id : Nat) : State × Reply :=
  match s.jobPlace id with
  | some (.analysing _) => (s.modifySpan id (SpanRecord.goTo .retiring), stateReply id .retiring)
  | some p => ((s.removeJob id p).becomeEmpty id, emptyReply id)
  | none => (s.becomeEmpty id, emptyReply id)

/-- The act of SPAN_RETIRE (R18, R19). -/
def actSpanRetire (id : U16) (s : State) : State × Reply :=
  match s.findSpan id.toNat with
  | none => (s, Reply.refusal .notFound)
  | some r => if r.state = .retiring then (s, stateReply id.toNat .retiring) else retireSpan s id.toNat

/-- SPAN_RETIRE (R18). -/
def execSpanRetire (id : U16) (s : State) : Host.Outcome State Fault Refusal := .next (s.exchange 5 (actSpanRetire id))

end Sys2Proof.Machine
end

