-- ==== Sys2Proof/Machine/TestEvents.lean ====
section
/-! DEFINITION. The events of time and of a test under way: TIME_ADVANCE (chapter 9), SETTLE_COMPLETION and
GUARD_COMPLETION (chapter 4), SHOT_ACCUMULATED and ACQUISITION_COMPLETION (chapter 5), DISPATCH_PASS (chapter 9). An event
that the part is not waiting for leaves the state as it is (R80, log entry 6). -/

namespace Sys2Proof.Machine

/-! ### TIME_ADVANCE (R160, R161) -/

/-- The time base one second on; the value after 86399 is 0 (R160). -/
def TimeBase.advanced (t : TimeBase) : TimeBase :=
  { t with timeOfDay := (t.timeOfDay + 1) % 86400, nextAdvance := t.nextAdvance + secondNs }

/-- TIME_ADVANCE (R161). A SPAN_HOLD that waits directly behind it comes together with the window open that it may bring (R14,
log entry 28). -/
def execTimeAdvance (s : State) : Host.Outcome State Fault Refusal :=
  let s1 := s.reach s.timeBase.nextAdvance
  .next (({ s1 with timeBase := s1.timeBase.advanced } : State).retestWindow s.heldTogether)

/-! ### SETTLE_COMPLETION (R64 to R66) -/

/-- SETTLE_COMPLETION (R64): of a MOVING bank. -/
def execSettleCompletion (bank : Letter) (sense : Sense) (s : State) : Host.Outcome State Fault Refusal :=
  match (s.banks.get bank).motion with
  | .moving due => .next ((s.reach due).settle bank (senseValue sense))
  | .still => .next s

/-! ### GUARD_COMPLETION (R69 to R71) -/

/-- The number of samples of a guard (R69). -/
def guardSamples : Nat := 800000

/-- The guard level of a sum of samples (R69). -/
def guardLevel (sum : Nat) : Nat := levelOf (sum / guardSamples)

/-- The span's LIVE flag set, together with its mark (R23). -/
def State.liveFound (s : State) : Work → State
  | .test _ id _ => s.modifySpan id (SpanRecord.setLive true)
  | .verify _ _ => s

/-- The span's LIVE flag cleared with its mark set, where it was set (R71). -/
def State.liveGone (s : State) : Work → State
  | .test _ id _ => s.modifySpan id (fun r => if r.live then r.setLive false else r)
  | .verify _ _ => s

/-- FIRING_1625 begins: shots done 0, every sum 0 (R84). -/
def State.startFiring (s : State) (ch : Letter) (f : Flight) : State :=
  s.setChannel ch
    { s.channels.get ch with
      activity := .busy (.firing1625 s.now) { f with shotsDone := 0 }
      accumulator := clearedSums f.snapshot }

/-- A guard level in the live band: LIVE on job and span, and the 1310 nm step dropped from a DUAL job (R71). -/
def State.guardLive (s : State) (ch : Letter) (f : Flight) : State :=
  let s1 := s.liveFound f.work
  if f.plan = .dual then (s1.free1310 f.work.id).startFiring ch { f with live := true, plan := .single }
  else s1.startFiring ch { f with live := true }

/-- A guard completion: overload, live band or clear, by the thresholds as they stand (R70, R71). -/
def State.guardDone (s : State) (ch : Letter) (f : Flight) (level : Nat) : State :=
  if s.thresholds.overload ≤ level then (s.endWithOutcome f.work .liveOverload).dropFlight ch f .idle
  else if s.thresholds.live ≤ level then s.guardLive ch f
  else (s.liveGone f.work).startFiring ch f

/-- GUARD_COMPLETION (R69): of a channel in GUARD. -/
def execGuardCompletion (channel : Letter) (sum : Nat) (s : State) : Host.Outcome State Fault Refusal :=
  match (s.channels.get channel).activity with
  | .busy (.guard due) f => .next ((s.reach due).guardDone channel f (guardLevel sum))
  | .busy .switching _ => .next s
  | .busy (.firing1625 _) _ => .next s
  | .busy (.firing1310 _) _ => .next s
  | .idle => .next s
  | .inhibited => .next s

/-! ### SHOT_ACCUMULATED (R84, R85) -/

/-- When a firing stage began. -/
def Stage.firingSince : Stage → Option Nat
  | .switching => none
  | .guard _ => none
  | .firing1625 since => some since
  | .firing1310 since => some since

/-- When the last bin of the shot after `shots` shots is sampled: one shot period less the 2000 ns of recovery (R84). -/
def shotTime (snapshot : Snapshot) (since shots : Nat) : Nat :=
  since + (shots + 1) * snapshot.shotPeriod - 2000

/-- The shot is one that the acquisition takes: a sample for each bin of the range, and shots still to be done. -/
def Flight.takesShot (f : Flight) (samples : List U16) : Bool :=
  samples.length == f.snapshot.rangeBins && f.shotsDone < f.snapshot.shots

/-- A shot added to the accumulator, and the shots done one more (R85). -/
def State.addShot (s : State) (ch : Letter) (stage : Stage) (f : Flight) (samples : List U16) : State :=
  let sums := groupSums f.snapshot.profile.spacing f.snapshot.profile.pointCount (samples.map BitVec.toNat)
  let c := s.channels.get ch
  s.setChannel ch
    { c with
      activity := .busy stage { f with shotsDone := f.shotsDone + 1 }
      accumulator := List.zipWith (· + ·) c.accumulator sums }

/-- SHOT_ACCUMULATED (R85): at a channel that is firing. Samples of another number than the range has bins are no shot of
this acquisition (log entry 14). -/
def execShotAccumulated (channel : Letter) (samples : List U16) (s : State) : Host.Outcome State Fault Refusal :=
  match (s.channels.get channel).activity with
  | .busy stage f =>
    match stage.firingSince with
    | some since =>
      if f.takesShot samples then
        .next ((s.reach (shotTime f.snapshot since f.shotsDone)).addShot channel stage f samples)
      else .next s
    | none => .next s
  | .idle => .next s
  | .inhibited => .next s

/-! ### ACQUISITION_COMPLETION (R86, R87) -/

/-- The acquisition has had its last shot (R85). -/
def Flight.acquired (f : Flight) : Bool := f.snapshot.shots ≤ f.shotsDone

/-- When an acquisition that began at `since` is complete (R52). -/
def Flight.acquisitionEnd (f : Flight) (since : Nat) : Nat := since + f.snapshot.shots * f.snapshot.shotPeriod

/-- The level trace written into the job's buffer of this role (R86). -/
def State.writeTrace (s : State) (ch : Letter) (f : Flight) (role : Role) : State :=
  s.fillBuffer f.work.id role (levelTrace f.snapshot f.shotsDone (s.channels.get ch).accumulator)

/-- FIRING_1310 begins (R84). -/
def State.startSecond (s : State) (ch : Letter) (f : Flight) : State :=
  s.setChannel ch
    { s.channels.get ch with
      activity := .busy (.firing1310 s.now) { f with shotsDone := 0 }
      accumulator := clearedSums f.snapshot }

/-- The 1625 nm acquisition complete: on to 1310 nm, or handed on, by the plan (R86). -/
def State.firstDone (s : State) (ch : Letter) (f : Flight) : State :=
  let s1 := s.writeTrace ch f .nm1625
  if f.plan = .dual then s1.startSecond ch f else s1.handOn ch f

/-- The 1310 nm acquisition complete: handed on (R87). -/
def State.secondDone (s : State) (ch : Letter) (f : Flight) : State := (s.writeTrace ch f .nm1310).handOn ch f

/-- ACQUISITION_COMPLETION (R86): at a channel whose last shot is accumulated. -/
def execAcquisitionCompletion (channel : Letter) (s : State) : Host.Outcome State Fault Refusal :=
  match (s.channels.get channel).activity with
  | .busy (.firing1625 since) f =>
    if f.acquired then .next ((s.reach (f.acquisitionEnd since)).firstDone channel f) else .next s
  | .busy (.firing1310 since) f =>
    if f.acquired then .next ((s.reach (f.acquisitionEnd since)).secondDone channel f) else .next s
  | .busy .switching _ => .next s
  | .busy (.guard _) _ => .next s
  | .idle => .next s
  | .inhibited => .next s

/-! ### DISPATCH_PASS (R174) -/

/-- DISPATCH_PASS (R174). -/
def execDispatchPass (senseA senseB : Sense) (s : State) : Host.Outcome State Fault Refusal :=
  .next (s.dispatchPass (senseValues senseA senseB))

end Sys2Proof.Machine
end

