-- ==== Sys2Proof/Machine/TestRequests.lean ====
section
/-! DEFINITION. The test requests (chapter 9): TEST_NOW, TEST_CANCEL. -/

namespace Sys2Proof.Machine

/-! ### TEST_NOW (R171) -/

/-- The refusal of TEST_NOW on a span that exists, by the order of R171. -/
def State.refusesTest (s : State) (r : SpanRecord) : Option Status :=
  if r.state = .learning ∨ r.state = .retiring then some .wrongState
  else if (s.jobPlace r.id).isSome then some .spanBusy
  else if 8 ≤ s.sched.demandQueue.length then some .queueFull
  else none

/-- The act of TEST_NOW (R171). -/
def actTestNow (id : U16) (s : State) : State × Reply :=
  if id.toNat = 0 then (s, Reply.refusal .badField)
  else
    match s.findSpan id.toNat with
    | none => (s, Reply.refusal .notFound)
    | some r =>
      match s.refusesTest r with
      | some status => (s, Reply.refusal status)
      | none =>
        (s.tailOfDemandQueue { span := id.toNat, learn := false },
          { status := .ok, body := [byte (s.sched.demandQueue.length + 1)] })

/-- TEST_NOW (R171). -/
def execTestNow (id : U16) (s : State) : Host.Outcome State Fault Refusal := .next (s.exchange 5 (actTestNow id))

/-! ### TEST_CANCEL (R172) -/

/-- What a cancel writes to the span: CANCELLED, and the resume state for a LEARN job (R172, R17). -/
def State.writeCancelled (s : State) (id : Nat) (learn : Bool) : State :=
  let s1 := s.writeOutcome id .cancelled none
  if learn then s1.modifySpan id SpanRecord.endLearn else s1

/-- The current job's cancelled flag set (R172). -/
def State.markCancelled (s : State) (a : Analysis) : State :=
  { s with engine := { s.engine with current := some { a with flight := { a.flight with cancelled := true } } } }

/-- A cancel of a DEMAND or LEARN job, by its stage (R172). -/
def cancelJob (s : State) (id : Nat) (place : JobPlace) : State :=
  match place with
  | .analysing a => if a.flight.cancelled then s else (s.markCancelled a).writeCancelled id place.isLearn
  | .classQueue c => (s.removeJob id (.classQueue c)).writeCancelled id place.isLearn
  | .demandQueue learn => (s.removeJob id (.demandQueue learn)).writeCancelled id place.isLearn
  | .channel ch f => (s.removeJob id (.channel ch f)).writeCancelled id place.isLearn
  | .waiting f => (s.removeJob id (.waiting f)).writeCancelled id place.isLearn

/-- The act of TEST_CANCEL (R172). -/
def actTestCancel (id : U16) (s : State) : State × Reply :=
  if id.toNat = 0 then (s, Reply.refusal .badField)
  else
    match s.findSpan id.toNat with
    | none => (s, Reply.refusal .notFound)
    | some r =>
      if r.state = .retiring then (s, Reply.refusal .wrongState)
      else
        match s.jobPlace id.toNat with
        | none => (s, Reply.refusal .wrongState)
        | some place =>
          if place.isScheduled then (s, Reply.refusal .wrongState)
          else (cancelJob s id.toNat place, { status := .ok, body := [] })

/-- TEST_CANCEL (R172). -/
def execTestCancel (id : U16) (s : State) : Host.Outcome State Fault Refusal := .next (s.exchange 5 (actTestCancel id))

end Sys2Proof.Machine
end

