-- ==== Sys2Proof/Machine/Dispatch.lean ====
section
/-! DEFINITION. The effect of each command on everything but the queue: one arm for each constructor of `Instr`. -/

namespace Sys2Proof.Machine

def exec (i : Instr) (s : State) : Host.Outcome State Fault Refusal :=
  match i with
  | .spanPut fields => Sys2Proof.Machine.execSpanPut fields s
  | .spanGet id => Sys2Proof.Machine.execSpanGet id s
  | .spanByPort bank position => Sys2Proof.Machine.execSpanByPort bank position s
  | .spanNext id => Sys2Proof.Machine.execSpanNext id s
  | .spanHold id => Sys2Proof.Machine.execSpanHold id s
  | .spanResume id => Sys2Proof.Machine.execSpanResume id s
  | .spanRetire id => Sys2Proof.Machine.execSpanRetire id s
  | .spanLearn id => Sys2Proof.Machine.execSpanLearn id s
  | .marksAppend body => Sys2Proof.Machine.execMarksAppend body s
  | .marksRead id start => Sys2Proof.Machine.execMarksRead id start s
  | .marksClear id => Sys2Proof.Machine.execMarksClear id s
  | .testNow id => Sys2Proof.Machine.execTestNow id s
  | .testCancel id => Sys2Proof.Machine.execTestCancel id s
  | .condGet tag => Sys2Proof.Machine.execCondGet tag s
  | .condNext id tag => Sys2Proof.Machine.execCondNext id tag s
  | .condAck tag => Sys2Proof.Machine.execCondAck tag s
  | .condRetire tag => Sys2Proof.Machine.execCondRetire tag s
  | .severitySet fields => Sys2Proof.Machine.execSeveritySet fields s
  | .profileSet fields => Sys2Proof.Machine.execProfileSet fields s
  | .profileGet number => Sys2Proof.Machine.execProfileGet number s
  | .clockSet timeOfDay => Sys2Proof.Machine.execClockSet timeOfDay s
  | .windowSet openTime closeTime => Sys2Proof.Machine.execWindowSet openTime closeTime s
  | .classSet cls weight preemptible => Sys2Proof.Machine.execClassSet cls weight preemptible s
  | .guardSet overload live => Sys2Proof.Machine.execGuardSet overload live s
  | .coilSet bank length groupIndex => Sys2Proof.Machine.execCoilSet bank length groupIndex s
  | .bankRestore bank sense => Sys2Proof.Machine.execBankRestore bank sense s
  | .statusGet => Sys2Proof.Machine.execStatusGet s
  | .changesRead => Sys2Proof.Machine.execChangesRead s
  | .attentionSet span condition unit => Sys2Proof.Machine.execAttentionSet span condition unit s
  | .restart => Sys2Proof.Machine.execRestart s
  | .frameRefused frame => Sys2Proof.Machine.execFrameRefused frame s
  | .readPeriod clocked => Sys2Proof.Machine.execReadPeriod clocked s
  | .ignoredPeriod clocked => Sys2Proof.Machine.execIgnoredPeriod clocked s
  | .powerOn straps inhibit => Sys2Proof.Machine.execPowerOn straps inhibit s
  | .resetPin straps inhibit => Sys2Proof.Machine.execResetPin straps inhibit s
  | .inhibitAsserted => Sys2Proof.Machine.execInhibitAsserted s
  | .inhibitReleased => Sys2Proof.Machine.execInhibitReleased s
  | .timeAdvance => Sys2Proof.Machine.execTimeAdvance s
  | .settleCompletion bank sense => Sys2Proof.Machine.execSettleCompletion bank sense s
  | .guardCompletion channel sum => Sys2Proof.Machine.execGuardCompletion channel sum s
  | .shotAccumulated channel samples => Sys2Proof.Machine.execShotAccumulated channel samples s
  | .acquisitionCompletion channel => Sys2Proof.Machine.execAcquisitionCompletion channel s
  | .dispatchPass senseA senseB => Sys2Proof.Machine.execDispatchPass senseA senseB s
  | .analysisTake => Sys2Proof.Machine.execAnalysisTake s
  | .analysisCompletion => Sys2Proof.Machine.execAnalysisCompletion s

end Sys2Proof.Machine
end

