-- ==== Sys2Proof/Machine/Step.lean ====
section
/-! DEFINITION. One step of the block: the command at the front of the queue, or one nanosecond of idling. -/

namespace Sys2Proof.Machine

/-- A nanosecond passes with no command (log entry 2). -/
def State.tick (s : State) : State := { s with now := s.now + 1 }

/-- The state with the front of its queue taken off. -/
def State.withPending (s : State) (rest : List Instr) : State := { s with pending := rest }

/-- One step: the command at the front of the queue is taken off and has its effect; with no command waiting, time passes. -/
def step (s : State) : Host.Outcome State Fault Refusal :=
  match s.pending with
  | c :: rest => exec c (s.withPending rest)
  | [] => .next s.tick

/-- The state with the command that a word spells put at the front of its queue; unchanged where the word spells none. -/
def State.withFetchWord (s : State) (nbits w : Nat) : State :=
  match decodeTableWord nbits w with
  | some c => s.withPending (c :: s.pending)
  | none => s

end Sys2Proof.Machine
end

