-- ==== Sys2Proof/Safety.lean ====
section
/-! DEFINITION. The laws that the spec gives the part, as predicates of a state, and the shape of an answered request: the
vocabulary of the statements. -/

namespace Sys2Proof.Machine

/-! ### What changes and what stays -/

/-- The fields of the state, by name. -/
inductive Part where
  | link | directory | profiles | timeBase | sched | banks | thresholds | channels | buffers | engine | table | inputs
  | now | draws | pending
deriving DecidableEq, Repr

/-- The part is the same in both states. -/
def Part.Same (s t : State) : Part → Prop
  | .link => t.link = s.link
  | .directory => t.directory = s.directory
  | .profiles => t.profiles = s.profiles
  | .timeBase => t.timeBase = s.timeBase
  | .sched => t.sched = s.sched
  | .banks => t.banks = s.banks
  | .thresholds => t.thresholds = s.thresholds
  | .channels => t.channels = s.channels
  | .buffers => t.buffers = s.buffers
  | .engine => t.engine = s.engine
  | .table => t.table = s.table
  | .inputs => t.inputs = s.inputs
  | .now => t.now = s.now
  | .draws => t.draws = s.draws
  | .pending => t.pending = s.pending

/-- Nothing changes but the parts named. -/
structure KeepsBut (changed : List Part) (s t : State) : Prop where
  same : ∀ p : Part, p ∉ changed → p.Same s t

/-- From `s` to `t` a request was answered with this status and body, and the attention enables are now `enables`: the
response is pending, its flags as R187 gives them, the discard note is spent, every byte clocked out read 0xFF, and
nothing else of the link changed. -/
structure AnsweredWith (enables : Enables) (s t : State) (status : Status) (body : List Byte) : Prop where
  waiting  : t.link.state = .responseWaiting
  response : t.link.response =
    some { status := status, priorDiscarded := s.link.discardNote || s.link.response.isSome, attnPending := t.attn
           body := body }
  note     : t.link.discardNote = false
  enables  : t.link.enables = enables
  buffer   : t.link.requestBuffer = s.link.requestBuffer
  idleOut  : ∀ b ∈ t.link.dataOut, b = 0xFF

/-- From `s` to `t` a request was answered with this status and body; the attention enables stand. -/
def Answered (s t : State) (status : Status) (body : List Byte) : Prop := AnsweredWith s.link.enables s t status body

/-- The request is answered with a refusal and no body, and no record changes. -/
def TurnsAway (i : Instr) (s : State) (status : Status) : Prop :=
  ∃ t, exec i s = .next t ∧ Answered s t status [] ∧ KeepsBut [.link] s t

/-- The request is answered OK with this body, and no record changes. -/
def ReadsOut (i : Instr) (s : State) (body : List Byte) : Prop :=
  ∃ t, exec i s = .next t ∧ Answered s t .ok body ∧ KeepsBut [.link] s t

/-- Every span named `id` has become `f` of its record; every other span, the vacated reports and the order stand. -/
structure SpanBecomes (id : Nat) (f : SpanRecord → SpanRecord) (s t : State) : Prop where
  spans   : t.spans = s.spans.map (fun q => if q.id = id then f q else q)
  order   : t.directory.map Entry.id = s.directory.map Entry.id
  vacated : ∀ i, Entry.vacated i ∈ t.directory ↔ Entry.vacated i ∈ s.directory

/-- The span has become EMPTY (R20): a vacated report stands in its place, and its open conditions are RETIRED with their
marks set. -/
structure Emptied (id : Nat) (s t : State) : Prop where
  spans      : t.spans = s.spans.filter (fun q => q.id != id)
  order      : t.directory.map Entry.id = s.directory.map Entry.id
  report     : ∀ i, Entry.vacated i ∈ t.directory ↔ (Entry.vacated i ∈ s.directory ∨ (i = id ∧ ∃ q ∈ s.spans, q.id = id))
  conditions : t.table.conditions = s.table.conditions.map (fun c =>
    if c.span = id ∧ c.state.isOpen = true then { c with state := .retired, mark := true } else c)
  counter    : t.table.tagCounter = s.table.tagCounter
  severity   : t.table.severity = s.table.severity

/-- The record that an ending of a job of this kind leaves, where the ending carries no end distance (R17, R21): the
outcome, the window number and the mark; a LEARN job's span leaves LEARNING for its resume state. -/
def SpanRecord.ended (kind : TestKind) (o : LastOutcome) (window : Nat) (r : SpanRecord) : SpanRecord :=
  { r with
    state := if kind = .learn ∧ r.state = .learning then r.resume else r.state
    lastOutcome := o
    lastWindow := window
    mark := true }

/-- The job ended with this outcome and no end distance: its span's record takes it, and a VERIFY job writes no span. -/
def Ended (w : Work) (o : LastOutcome) (s t : State) : Prop :=
  match w with
  | .test kind id _ => SpanBecomes id (SpanRecord.ended kind o s.timeBase.windowNumber) s t
  | .verify _ _ => t.directory = s.directory

/-- The channel's job is gone from it (R66, R83, R90): the channel rests with its accumulator cleared, every buffer that
the job held is free, and the bank that the channel held has no holder. Trim, flags, marks, the other channel and the
other buffers stand. -/
structure GivesUp (ch : Letter) (f : Flight) (rest : Activity) (s t : State) : Prop where
  channels : t.channels = s.channels.set ch { s.channels.get ch with activity := rest, accumulator := [] }
  buffers  : ∀ i : Fin 4, t.buffers.get i = (s.buffers.get i).filter (fun h => h.holder != f.work.id)
  banks    : ∀ l : Letter, t.banks.get l =
    if (s.banks.get l).holder = some ch then { s.banks.get l with holder := none } else s.banks.get l

/-- The engine can take the job: its 1625 nm trace is written (R83), and the span that it names, if it names one, exists
and is not RETIRING (R101). -/
structure Takeable (u : State) (f : Flight) : Prop where
  trace : (u.traceOf f.work.id .nm1625).isSome = true
  span  : ∀ kind id rev, f.work = .test kind id rev → ∃ r, u.findSpan id = some r ∧ r.state ≠ .retiring

/-- `a` is what the engine makes of the job `f` when it takes it in state `u`: the job, its traces, its snapshot, the trim
recorded at hand-on, the values of its span or of its coil, and the completion due after the analysis time (R101, R102,
R107). -/
structure TakenAs (u : State) (f : Flight) (a : Analysis) : Prop where
  flight    : a.flight = f
  primary   : (u.traceOf f.work.id .nm1625).map Trace.levels = some a.input.primary
  secondary : a.input.secondary = (u.traceOf f.work.id .nm1310).map Trace.levels
  snapshot  : a.input.snapshot = f.snapshot
  trim      : a.input.trim = (f.recorded.map Recorded.trim).getD 0
  due       : a.due =
    u.now + f.snapshot.profile.pointCount * (if a.input.secondary.isSome then 2 else 1) * 1000000 / 1024
  span      : ∀ kind id rev, f.work = .test kind id rev → ∃ r c, u.findSpan id = some r ∧ a.input.subject = .span c ∧
    c.fields = r.clamped ∧ c.landmarks = (if kind = .learn then [] else r.landmarks) ∧
    c.rangeDistance = min (binsToCm r.clamped.groupIndex f.snapshot.rangeBins) 12000000
  coil      : ∀ own coil, f.work = .verify own coil → a.input.subject = .coil coil

/-- The channel handed its job on as `g` (R87): the channel is IDLE with its accumulator cleared, the bank that it held
has no holder, a dispatch pass is called for, and `g` has joined the analysis queue at its tail, or was taken in the same
act by an IDLE engine with an empty queue (R101). -/
structure HandsOn (ch : Letter) (g : Flight) (s t : State) : Prop where
  channels : t.channels = s.channels.set ch { s.channels.get ch with activity := .idle, accumulator := [] }
  recorded : g.recorded = some { trim := (s.channels.get ch).trim, degraded := (s.channels.get ch).degraded }
  banks    : ∀ l : Letter, t.banks.get l =
    if (s.banks.get l).holder = some ch then { s.banks.get l with holder := none } else s.banks.get l
  called   : t.sched = { s.sched with dispatchCalled := true }
  joined   : s.engine.current.isSome = true → t.engine = { s.engine with queue := s.engine.queue ++ [g] }
  arrived  : g ∈ t.engine.queue ∨ t.engine.current.map Analysis.flight = some g
  taken    : s.engine = { queue := [], current := none } → Takeable t g →
    ∃ a, t.engine = { queue := [], current := some a } ∧ TakenAs t g a

/-- What every analysis completion leaves (R105): the job's buffers free, a dispatch pass called for, the engine IDLE where no
job waits and with the head of its queue taken in the same act where one does (R101), and the clock at the due time, which
is the model's choice (log entry 1). -/
structure Finishes (a : Analysis) (s t : State) : Prop where
  buffers : ∀ i : Fin 4, t.buffers.get i = (s.buffers.get i).filter (fun h => h.holder != a.flight.work.id)
  sched   : t.sched = { s.sched with dispatchCalled := true }
  engine  : s.engine.queue = [] → t.engine = { queue := [], current := none }
  taken   : ∀ g rest, s.engine.queue = g :: rest → Takeable t g →
    ∃ b, t.engine = { queue := rest, current := some b } ∧ TakenAs t g b
  clock   : t.now = max s.now a.due

/-! ### Jobs at the channels that INHIBIT sends back (R93) -/

/-- The entry that the DEMAND or LEARN job at a channel has in the demand queue. -/
def State.demandAt (s : State) (ch : Letter) : List DemandJob :=
  match (s.channels.get ch).activity.flight?.map Flight.work with
  | some (.test .demand id _) => [{ span := id, learn := false }]
  | some (.test .learn id _) => [{ span := id, learn := true }]
  | some (.test (.scheduled _) _ _) => []
  | some (.verify _ _) => []
  | none => []

/-- The span of the SCHEDULED job at a channel. -/
def State.scheduledAt (s : State) (ch : Letter) : List Nat :=
  match (s.channels.get ch).activity.flight?.map Flight.work with
  | some (.test (.scheduled _) id _) => [id]
  | some (.test .demand _ _) => []
  | some (.test .learn _ _) => []
  | some (.verify _ _) => []
  | none => []

/-- The span of the SCHEDULED job at a channel, if its span's class is `k`. A span that is gone is taken at the class that
the job recorded (log entry 21). -/
def State.scheduledOfClass (s : State) (ch : Letter) (k : Fin 4) : List Nat :=
  match (s.channels.get ch).activity.flight?.map Flight.work with
  | some (.test (.scheduled c) id _) => if ((s.findSpan id).map SpanRecord.cls).getD c = k then [id] else []
  | some (.test .demand _ _) => []
  | some (.test .learn _ _) => []
  | some (.verify _ _) => []
  | none => []

/-! ### The status summary (R203) -/

/-- The field stands in the body at this offset. -/
def HasAt (body : List Byte) (offset : Nat) (field : List Byte) : Prop := (body.drop offset).take field.length = field

/-- The code of a flag that is no or yes (R200). -/
def yesNo (b : Bool) : Byte := if b then 1 else 0

/-- A channel unit body stands at this offset, with the codes of R200 and 0 for each part of a job that is absent. -/
structure ChannelUnitAt (s : State) (name : Letter) (body : List Byte) (k : Nat) : Prop where
  unit       : HasAt body k [if name = .A then 0 else 1]
  idle       : (s.channels.get name).activity = .idle → HasAt body (k + 1) [0]
  switching  : ∀ f, (s.channels.get name).activity = .busy .switching f → HasAt body (k + 1) [1]
  guard      : ∀ due f, (s.channels.get name).activity = .busy (.guard due) f → HasAt body (k + 1) [2]
  firing1625 : ∀ since f, (s.channels.get name).activity = .busy (.firing1625 since) f → HasAt body (k + 1) [3]
  firing1310 : ∀ since f, (s.channels.get name).activity = .busy (.firing1310 since) f → HasAt body (k + 1) [4]
  inhibited  : (s.channels.get name).activity = .inhibited → HasAt body (k + 1) [5]
  fitted     : HasAt body (k + 2) [yesNo (s.fitted name)]
  noJob      : (s.channels.get name).activity.flight? = none → HasAt body (k + 3) [0, 0, 0, 0]
  scheduled  : ∀ f c id rev, (s.channels.get name).activity.flight? = some f → f.work = .test (.scheduled c) id rev →
    HasAt body (k + 3) ([1] ++ be16 id)
  demand     : ∀ f id rev, (s.channels.get name).activity.flight? = some f → f.work = .test .demand id rev →
    HasAt body (k + 3) ([2] ++ be16 id)
  learn      : ∀ f id rev, (s.channels.get name).activity.flight? = some f → f.work = .test .learn id rev →
    HasAt body (k + 3) ([3] ++ be16 id)
  verify     : ∀ f own coil, (s.channels.get name).activity.flight? = some f → f.work = .verify own coil →
    HasAt body (k + 3) [4, 0, 0]
  plan       : ∀ f, (s.channels.get name).activity.flight? = some f →
    HasAt body (k + 6) [if f.plan = .dual then 1 else 2]
  trim       : HasAt body (k + 7) [BitVec.ofInt 8 (s.channels.get name).trim]
  degraded   : HasAt body (k + 8) [yesNo (s.channels.get name).degraded]

/-- A bank unit body stands at this offset, with the codes of R200 and 0xFF for a sensed position of NONE. -/
structure BankUnitAt (s : State) (name : Letter) (body : List Byte) (k : Nat) : Prop where
  unit      : HasAt body k [if name = .A then 2 else 3]
  present   : HasAt body (k + 1) [yesNo (s.present name)]
  service   : HasAt body (k + 2) [if (s.banks.get name).service = .inService then 0 else 1]
  holder    : HasAt body (k + 3)
    [if (s.banks.get name).holder = none then 0 else if (s.banks.get name).holder = some .A then 1 else 2]
  commanded : HasAt body (k + 4) [byte (s.banks.get name).commanded]
  motion    : HasAt body (k + 5) [if (s.banks.get name).motion = .still then 0 else 1]
  sensed    : HasAt body (k + 6) [((s.banks.get name).sensed.map byte).getD 0xFF]
  coil      : HasAt body (k + 7) (be32 (s.banks.get name).coil.length ++ be16 (s.banks.get name).coil.groupIndex)

/-- The body is the status summary of the state: 86 bytes, with every field of R203 at its offset. -/
structure SummaryOf (s : State) (body : List Byte) : Prop where
  length     : body.length = 86
  spans      : HasAt body 0 [byte s.spans.length]
  pool       : HasAt body 1 (be16 (2048 - (s.spans.map (fun r => r.landmarks.length)).sum))
  buffers    : HasAt body 3 [byte (s.buffers.toList.filter Option.isNone).length]
  engine     : HasAt body 4 [yesNo s.engine.current.isSome, byte s.engine.queue.length]
  classes    : HasAt body 6 (s.sched.classQueues.toList.map (fun q => byte q.length))
  demand     : HasAt body 10 [byte s.sched.demandQueue.length]
  verify     : HasAt body 11 [byte (s.sched.verifyPlaces.a.toNat + 2 * s.sched.verifyPlaces.b.toNat)]
  credits    : HasAt body 12 (s.sched.classes.toList.map (fun c => byte c.credit))
  conditions : HasAt body 16 [byte s.table.conditions.length]
  times      : HasAt body 17 (be32 s.timeBase.timeOfDay ++ be32 s.timeBase.openTime ++ be32 s.timeBase.closeTime)
  window     : HasAt body 29 ([yesNo s.timeBase.windowOpen] ++ be16 s.timeBase.windowNumber)
  thresholds : HasAt body 32 (be16 s.thresholds.overload ++ be16 s.thresholds.live)
  channelA   : ChannelUnitAt s .A body 36
  channelB   : ChannelUnitAt s .B body 45
  bankA      : BankUnitAt s .A body 54
  bankB      : BankUnitAt s .B body 67
  inputs     : HasAt body 80 [byte (s.inputs.inhibit.toNat + 2 * s.inputs.straps.bankB.toNat +
    4 * s.inputs.straps.dualA.toNat + 8 * s.inputs.straps.dualB.toNat)]
  enables    : HasAt body 81 [byte (s.link.enables.span.toNat + 2 * s.link.enables.condition.toNat +
    4 * s.link.enables.unit.toNat)]
  attn       : HasAt body 82 [yesNo s.attn]
  spanMarks  : HasAt body 83 [byte (s.directory.filter (fun e => match e with
    | .span r => r.mark
    | .vacated _ => true)).length]
  condMarks  : HasAt body 84 [byte (s.table.conditions.filter Condition.mark).length]
  unitMarks  : HasAt body 85 [byte (s.channels.a.mark.toNat + s.channels.b.mark.toNat + s.banks.a.mark.toNat +
    s.banks.b.mark.toNat)]

/-! ### What requests carry -/

/-- The checked fields of a SPAN_PUT lie in their ranges (R6 step 2). -/
structure CheckedInRange (b : SpanFields) : Prop where
  bank     : b.bank.toNat ≤ 1
  position : 1 ≤ b.position.toNat ∧ b.position.toNat ≤ 60
  profile  : b.profile.toNat ≤ 7
  cls      : b.cls.toNat ≤ 3
  interval : 1 ≤ b.interval.toNat ∧ b.interval.toNat ≤ 7
  phase    : b.phase.toNat < b.interval.toNat

/-- The host-written fields of the record are those carried, the clamped ones as clamped (R7). -/
structure HoldsTheFields (b : SpanFields) (r : SpanRecord) : Prop where
  id       : r.id = b.identifier.toNat
  bank     : bankOfByte b.bank = some r.bank
  position : r.position = b.position.toNat
  profile  : r.profile.val = b.profile.toNat
  cls      : r.cls.val = b.cls.toNat
  interval : r.interval = b.interval.toNat
  phase    : r.phase = b.phase.toNat
  clamped  : r.clamped =
    { groupIndex := max 14000 (min 15000 b.groupIndex.toNat), launchOffset := min 4095 b.launchOffset.toNat
      attenuation := max 100 (min 600 b.attenuation.toNat), lossThreshold := max 50 (min 3000 b.lossThreshold.toNat)
      driftThreshold := max 50 (min 3000 b.driftThreshold.toNat), bendMargin := max 100 (min 3000 b.bendMargin.toNat)
      matchTolerance := max 100 (min 5000 b.matchTolerance.toNat)
      confirmCount := max 1 (min 7 b.confirmCount.toNat), clearCount := max 1 (min 7 b.clearCount.toNat) }

/-- The status of a taken SPAN_PUT: OK if every clamped field is stored as carried, CLAMPED otherwise (R7). -/
def putStatus (b : SpanFields) (r : SpanRecord) : Status :=
  if r.clamped = SpanClamp.carried b then .ok else .clamped

/-- The values that an entry is stored with (R33). -/
def storedMark (m : Landmark) : Landmark :=
  { m with
    loss := if m.kind = .farEnd then 0 else min m.loss 20000
    height := if m.kind = .connector then min m.height 24082 else 0 }

/-- Each entry lies beyond the one before it, and none follows a FAR_END (R32 step 6). -/
def InOrder (l : List Landmark) : Prop :=
  l.Pairwise (fun a b => a.distance < b.distance ∧ a.kind ≠ .farEnd)

/-- The body of a MARKS_APPEND with these entries (R201). -/
def marksBody (id : U16) (marks : List Landmark) : List Byte :=
  split16 id ++ [byte marks.length] ++ marks.flatMap landmarkBytes

/-- The entries are ones that a MARKS_APPEND can carry: 1 to 16, each value at the width it has on the link (R201). -/
structure Carriable (marks : List Landmark) : Prop where
  count  : 1 ≤ marks.length ∧ marks.length ≤ 16
  widths : ∀ m ∈ marks, m.distance < 4294967296 ∧ m.loss < 65536 ∧ m.height < 65536

/-! ### Extraction (R108 to R118) -/

/-- The mean of the `w` levels from point `i` on, truncated (R109, R112). -/
def meanAt (levels : List Nat) (w i : Nat) : Nat := ((levels.drop i).take w).sum / w

/-- The step at point `i`: the near window mean less the far window mean less the slope correction (R109, R110). -/
def stepAt (levels : List Nat) (w guard correction i : Nat) : Int :=
  (meanAt levels w (i - w) : Int) - (meanAt levels w (i + guard) : Int) - (correction : Int)

/-- The peak at point `i`: the level less the near window mean (R110). -/
def peakAt (levels : List Nat) (w i : Nat) : Int := (levels.getD i 0 : Int) - (meanAt levels w (i - w) : Int)

/-- The points from `a` to `b` are a run of the points that are `inside`: each of them is, and the points next to the run
are not (R114, R115). -/
def IsRun (inside : Nat → Prop) (a b : Nat) : Prop :=
  a ≤ b ∧ (∀ i, a ≤ i → i ≤ b → inside i) ∧ ¬ inside (b + 1) ∧ ∀ i, i + 1 = a → ¬ inside i

/-- `i` is the first of the points with the greatest `value` in some run (R115). -/
def IsRunPeak (inside : Nat → Prop) (value : Nat → Int) (i : Nat) : Prop :=
  ∃ a b, IsRun inside a b ∧ a ≤ i ∧ i ≤ b ∧ (∀ k, a ≤ k → k ≤ b → value k ≤ value i) ∧
    ∀ k, a ≤ k → k < i → value k < value i

/-- What extraction reads of an input copy (R107, R108, R109): the levels, P, w, g, the bounds of the run range, the slope
correction and the two thresholds. -/
structure TraceReading where
  primary    : List Nat
  secondary  : Option (List Nat)
  points     : Nat
  window     : Nat
  guard      : Nat
  lower      : Nat
  limit      : Nat
  correction : Nat
  peakFrom   : Nat
  stepFrom   : Nat

namespace TraceReading

/-- The point is in the run range: in the step range from the lower bound to P - g - w, and below E (R108, R113). -/
def InRange (x : TraceReading) (i : Nat) : Prop := x.lower ≤ i ∧ i + x.guard + x.window ≤ x.points ∧ i < x.limit

/-- The step at a point of the primary trace. -/
def step (x : TraceReading) (i : Nat) : Int := stepAt x.primary x.window x.guard x.correction i

/-- The peak at a point of the primary trace. -/
def peak (x : TraceReading) (i : Nat) : Int := peakAt x.primary x.window i

/-- The points that a reflective run is made of (R114). -/
def Reflects (x : TraceReading) (i : Nat) : Prop := x.InRange i ∧ (x.peakFrom : Int) ≤ x.peak i

/-- The points that a loss run is made of (R115). -/
def Loses (x : TraceReading) (i : Nat) : Prop := x.InRange i ∧ (x.stepFrom : Int) ≤ x.step i

/-- A reflective run has its location, its first point, here (R114). -/
def ReflectsAt (x : TraceReading) (r : Nat) : Prop := ∃ b, IsRun x.Reflects r b

/-- A loss run has its location here (R115). -/
def LosesAt (x : TraceReading) (l : Nat) : Prop := IsRunPeak x.Loses x.step l

/-- The loss run at `l` is merged into the reflective run at `r`: within its reach, and no later run is (R116). -/
def MergedInto (x : TraceReading) (l r : Nat) : Prop :=
  x.LosesAt l ∧ x.ReflectsAt r ∧ r ≤ l ∧ l < r + x.guard ∧ ∀ q, x.ReflectsAt q → q ≤ l → q ≤ r

/-- An event has this location and type before the list is limited (R114 to R117). -/
def EventAt (x : TraceReading) (location : Nat) (reflective : Bool) : Prop :=
  if reflective then x.ReflectsAt location else x.LosesAt location ∧ ∀ r, ¬ x.MergedInto location r

end TraceReading

/-- The fields of an event are those of R114 to R117, its distance apart. -/
structure EventFields (x : TraceReading) (e : Event) : Prop where
  step     : e.step = x.step e.location
  step2    : e.step2 = x.secondary.map (fun levels => stepAt levels x.window x.guard x.correction e.location)
  plain    : e.reflective = false → (e.loss : Int) = x.step e.location ∧ e.height = 0
  height   : e.reflective = true → ∃ b, IsRun x.Reflects e.location b ∧
    (∀ i, e.location ≤ i → i ≤ b → x.peak i ≤ e.height) ∧ ∃ i, e.location ≤ i ∧ i ≤ b ∧ x.peak i = e.height
  greatest : e.reflective = true →
    x.step e.location ≤ e.loss ∧ ∀ l, x.MergedInto l e.location → x.step l ≤ e.loss
  reached  : e.reflective = true →
    e.loss = 0 ∨ (e.loss : Int) = x.step e.location ∨ ∃ l, x.MergedInto l e.location ∧ (e.loss : Int) = x.step l

/-- What extraction reads of an input copy, with `e` the end of fibre (R107, R108, R109). -/
def readOf (input : InputCopy) (c : SpanCopy) (e : Nat) : TraceReading :=
  let p := input.snapshot.profile
  { primary := input.primary, secondary := input.secondary, points := p.pointCount, window := p.window
    guard := input.snapshot.guard
    lower := max p.window ((c.fields.launchOffset + p.spacing - 1) / p.spacing)
    limit := e
    correction := roundDiv (c.fields.attenuation * (p.window + input.snapshot.guard) * p.spacing * 749481)
      (2 * c.fields.groupIndex * 100000)
    peakFrom := p.reflectiveThreshold, stepFrom := c.fields.lossThreshold }

/-- The distance of a point: the middle of its bins less the launch offset plus the trim, converted, no less than 0 and at
most the range distance (R118). -/
def placeOf (input : InputCopy) (c : SpanCopy) (i : Nat) : Nat :=
  let s := input.snapshot.profile.spacing
  min (roundDiv ((((i * s + s / 2 : Nat) : Int) - (c.fields.launchOffset : Int) + input.trim).toNat * 749481)
    (2 * c.fields.groupIndex)) c.rangeDistance

/-! ### Matching and findings (R123 to R130) -/

/-- The landmark may take the event: of a compatible type, and within T (R123). -/
def MayTake (t : Nat) (m : Landmark) (e : Event) : Prop :=
  (m.kind = .splice ∨ m.kind = .splitter ∨ (m.kind = .connector ∧ e.reflective = true)) ∧
    m.distance ≤ e.distance + t ∧ e.distance ≤ m.distance + t

/-- Among the events the landmark takes `e`: one that it may take, the nearest, of two equally near the one of lower
distance, and of two at one distance the one of lower location (R123). -/
def Takes (t : Nat) (m : Landmark) (events : List Event) (e : Event) : Prop :=
  e ∈ events ∧ MayTake t m e ∧ ∀ o ∈ events, MayTake t m o → o = e ∨
    distanceGap m.distance e.distance < distanceGap m.distance o.distance ∨
    (distanceGap m.distance e.distance = distanceGap m.distance o.distance ∧
      (e.distance < o.distance ∨ (e.distance = o.distance ∧ e.location < o.location)))

/-- The findings of a result before they are ordered (R127 to R130): a DRIFT of each matched pair whose loss has grown by
the drift threshold, a BREAK where the end of fibre is short of the FAR_END by more than T, and a finding of each unmatched
event. -/
def formedFindings (guard : Nat) (c : SpanCopy) (x : Extraction) (degraded : Bool) (t : Nat) (m : Matching) :
    List Finding :=
  (m.pairs.filter (fun p => p.1.loss + c.fields.driftThreshold ≤ p.2.loss)).map (fun p =>
      { kind := .drift, distance := min p.1.distance c.rangeDistance, magnitude := p.2.loss - p.1.loss
        single := false, degraded := degraded }) ++
    (((c.landmarks.find? (fun l => l.kind == .farEnd)).toList.filter
        (fun far => x.endDistance + t < far.distance)).map (fun _ =>
      { kind := .break_, distance := x.endDistance
        magnitude := (((x.events.filter (fun e =>
          e.reflective && x.endPoint ≤ e.location + guard && e.location < x.endPoint)).getLast?).map Event.height).getD 0
        single := false, degraded := degraded })) ++
    m.unmatched.map (fun e =>
      if e.reflective then
        { kind := .reflection, distance := e.distance, magnitude := e.height, single := false, degraded := degraded }
      else
        { kind := match e.step2 with
            | none => .loss
            | some s2 => if (c.fields.bendMargin : Int) ≤ e.step - max 0 s2 then .bend else .loss
          distance := e.distance, magnitude := e.loss, single := e.step2.isNone, degraded := degraded })

/-! ### The learned list (R135, R39) -/

/-- The landmark that an event becomes: CONNECTOR for a REFLECTIVE one, SPLITTER at a loss of 10000 or more, SPLICE
otherwise, its loss and height capped as the pool stores them. -/
def becomesLandmark (e : Event) : Landmark :=
  if e.reflective then
    { distance := e.distance, kind := .connector, loss := min e.loss 20000, height := min e.height 24082 }
  else
    { distance := e.distance, kind := if 10000 ≤ e.loss then .splitter else .splice, loss := min e.loss 20000, height := 0 }

/-- `e` is selected no later than `d` (R135, step 1): it has the greater key, or an equal key and the lower distance, or
both equal and a location that is no greater. -/
def SelectedNoLater (e d : Event) : Prop :=
  max d.loss d.height < max e.loss e.height ∨
  (max d.loss d.height = max e.loss e.height ∧
    (e.distance < d.distance ∨ (e.distance = d.distance ∧ e.location ≤ d.location)))

/-- The events that a learn keeps, in their order (R135, steps 1 and 2): all of them where there are 31 or fewer, and
otherwise 31 of which each is selected no later than each of those `left` out. -/
structure KeptEvents (events kept left : List Event) : Prop where
  parts    : (kept ++ left).Perm events
  count    : kept.length = min 31 events.length
  selected : ∀ e ∈ kept, ∀ d ∈ left, SelectedNoLater e d
  order    : kept.Pairwise (fun a b => a.distance < b.distance ∨ (a.distance = b.distance ∧ a.location ≤ b.location))

/-- The event is the first of the kept ones at its distance (R135, step 4). -/
def FirstAtDistance (kept : List Event) (e : Event) : Prop :=
  ∃ before after, kept = before ++ e :: after ∧ ∀ d ∈ before, d.distance ≠ e.distance

/-! ### Conditions under a result (R145, R150) -/

/-- `d` is the oldest of the conditions in `group`, in creation order: of the greatest age, and the earliest of those of
that age (R140). -/
def IsOldest (window : Nat) (group : Condition → Prop) (l : List Condition) (d : Condition) : Prop :=
  ∃ before after, l = before ++ d :: after ∧ group d ∧ (∀ e ∈ before, group e → e.age window < d.age window) ∧
    ∀ e ∈ after, group e → e.age window ≤ d.age window

/-- Among the candidates `l`, `d` is displaced by a creation of this kind (R150): the oldest RETIRED one, else the oldest
CLEARING one, else the oldest of those of the lowest severity, if that is below the kind's. -/
def Displaces (m : SeverityMap) (window : Nat) (kind : FaultKind) (l : List Condition) (d : Condition) : Prop :=
  IsOldest window (fun e => e.state = .retired) l d ∨
  ((∀ e ∈ l, e.state ≠ .retired) ∧ IsOldest window (fun e => e.state = .clearing) l d) ∨
  ((∀ e ∈ l, e.state ≠ .retired ∧ e.state ≠ .clearing) ∧
    IsOldest window (fun e => m.of e.kind < m.of kind ∧ ∀ o ∈ l, m.of e.kind ≤ m.of o.kind) l d)

/-- The made pairs of a result (R145): each is of a finding and a condition that matching considers; no two share a finding
or a condition; and every considered pair is made, or shares one with a made pair that was taken before it, in ascending
difference of distance, then place of the finding, then tag. -/
structure PairsMade (r : Result) (conditions : List Condition) (pairs : List Candidate) : Prop where
  considered : ∀ p ∈ pairs, ∃ f c, r.findings[p.finding]? = some f ∧ c ∈ conditions ∧ c.tag = p.tag ∧
    r.considers f c = true ∧ p.gap = distanceGap f.distance c.distance
  apart      : pairs.Pairwise (fun p q => p.finding ≠ q.finding ∧ p.tag ≠ q.tag)
  greedy     : ∀ i f c, r.findings[i]? = some f → c ∈ conditions → r.considers f c = true →
    ∃ p ∈ pairs, (p.finding = i ∨ p.tag = c.tag) ∧
      (p.gap < distanceGap f.distance c.distance ∨ (p.gap = distanceGap f.distance c.distance ∧
        (p.finding < i ∨ (p.finding = i ∧ p.tag ≤ c.tag))))

/-! ### Jobs and trace buffers (R82, R168) -/

/-- The queued jobs: those in the class queues, in the demand queue and in the verify places. -/
def State.queuedIds (s : State) : List JobId :=
  s.sched.classQueues.toList.flatten.map .span ++ s.sched.demandQueue.map (fun d => .span d.span) ++
    (if s.sched.verifyPlaces.a then [.verify .A] else []) ++ (if s.sched.verifyPlaces.b then [.verify .B] else [])

/-- Every job of the part: the queued ones, and those at the channels, in the analysis queue and in the engine. -/
def State.jobIds (s : State) : List JobId := s.queuedIds ++ s.flights.map (fun f => f.work.id)

/-- The laws of the scheduler (R168) and of the trace buffers (R82): no two jobs are of one span or of one verify place,
every job that names a span names an existing one, every held buffer is held by a dispatched job, and a job holds at most
one buffer for each of the two wavelengths. -/
structure JobLaw (s : State) : Prop where
  once  : s.jobIds.Nodup
  named : ∀ id, JobId.span id ∈ s.jobIds → ∃ r ∈ s.spans, r.id = id
  held  : ∀ (i : Fin 4) h, s.buffers.get i = some h → ∃ f ∈ s.flights, f.work.id = h.holder
  roles : ∀ (i k : Fin 4) h g, s.buffers.get i = some h → s.buffers.get k = some g → h.holder = g.holder →
    h.role = g.role → i = k

/-! ### The window -/

/-- A time of day is inside the window (R161). -/
def Inside (t o c : Nat) : Prop := o ≠ c ∧ (if o < c then o ≤ t ∧ t < c else o ≤ t ∨ t < c)

/-- The time base after a test of the window at the instant `now` (R161): the window state agrees with the time of day, the
window number rises at an opening, and what changes with it. An opening holds a dispatch pass (R164), which moves the clock
by 1 ns (log entry 4). -/
structure WindowTested (tod o c next now : Nat) (s t : State) : Prop where
  timeOfDay : t.timeBase.timeOfDay = tod
  openTime  : t.timeBase.openTime = o
  closeTime : t.timeBase.closeTime = c
  due       : t.timeBase.nextAdvance = next
  state     : t.timeBase.windowOpen = true ↔ Inside tod o c
  opens     : Inside tod o c → s.timeBase.windowOpen = false →
    t.timeBase.windowNumber = (s.timeBase.windowNumber + 1) % 65536 ∧ t.now = now + 1 ∧
      KeepsBut [.link, .timeBase, .now, .directory, .buffers, .sched, .banks, .channels, .draws] s t
  closes    : ¬ Inside tod o c → s.timeBase.windowOpen = true →
    t.timeBase.windowNumber = s.timeBase.windowNumber ∧ t.now = now ∧
      KeepsBut [.link, .timeBase, .now, .directory, .buffers, .sched, .banks, .channels, .engine, .draws] s t
  stands    : (Inside tod o c ↔ s.timeBase.windowOpen = true) →
    t.timeBase.windowNumber = s.timeBase.windowNumber ∧ t.now = now ∧ KeepsBut [.link, .timeBase, .now] s t

/-- From `s` to `t` steps 1 to 4 of a window open were made (R164, R165, R173, R75): the due spans' jobs at the tails of their
class queues, the verify jobs in their places, every credit at its weight, and a dispatch pass called for. -/
structure WindowOpens (s t : State) : Prop where
  open_   : t.timeBase.windowOpen = true
  number  : t.timeBase.windowNumber = (s.timeBase.windowNumber + 1) % 65536
  queues  : ∀ c : Fin 4, t.sched.classQueues.get c = s.sched.classQueues.get c ++
    (s.spans.filter (fun r => decide (r.state = .active ∧ r.cls = c ∧
      t.timeBase.windowNumber % r.interval = r.phase ∧ s.jobPlace r.id = none))).map SpanRecord.id
  verify  : ∀ ch : Letter, t.sched.verifyPlaces.get ch = (s.sched.verifyPlaces.get ch ||
    (!s.hasVerifyJob ch && s.present ch && (s.banks.get ch).service == .inService && (s.banks.get ch).coil.length != 0))
  credits : ∀ c : Fin 4, t.sched.classes.get c =
    { s.sched.classes.get c with credit := (s.sched.classes.get c).weight }
  demand  : t.sched.demandQueue = s.sched.demandQueue
  called  : t.sched.dispatchCalled = true

/-- From `s` to `t` the 1310 nm acquisition of the job `f` at the channel was cut (R89): the channel is IDLE, and the job,
now `g`, is in the analysis queue or in the engine. -/
structure Cut1310 (s t : State) (ch : Letter) (f g : Flight) : Prop where
  channel : t.channels.get ch = { s.channels.get ch with activity := .idle, accumulator := [] }
  arrived : g ∈ t.engine.queue ∨ t.engine.current.map Analysis.flight = some g
  enough  : 64 ≤ f.shotsDone →
    g = { f with
      short := f.short || decide (f.shotsDone < f.snapshot.shots)
      recorded := some { trim := (s.channels.get ch).trim, degraded := (s.channels.get ch).degraded } }
  trace   : 64 ≤ f.shotsDone → JobLaw s → ∀ (i : Fin 4) (h : Holding), s.buffers.get i = some h →
    h.holder = f.work.id → h.role = .nm1310 →
    t.buffers.get i = some { h with
      trace := some (Trace.mk
        ((s.channels.get ch).accumulator.map (fun sum => levelOf (sum / (f.shotsDone * f.snapshot.profile.spacing))))
        f.shotsDone f.snapshot.profile.pointCount) }
  tooFew  : f.shotsDone < 64 →
    g = { f with
      plan := .single
      single := true
      recorded := some { trim := (s.channels.get ch).trim, degraded := (s.channels.get ch).degraded } }
  dropped : f.shotsDone < 64 → ∀ (i : Fin 4) (h : Holding), t.buffers.get i = some h →
    ¬(h.holder = f.work.id ∧ h.role = .nm1310)

/-- From `s` to `t` a window has closed (R166, R22, R88, R89, R87): what is discarded, dropped and cut, and what stands. -/
structure WindowCloses (s t : State) : Prop where
  closed   : t.timeBase.windowOpen = false
  queues   : ∀ c : Fin 4, t.sched.classQueues.get c = []
  verify   : t.sched.verifyPlaces = ⟨false, false⟩
  demand   : t.sched.demandQueue = s.sched.demandQueue
  classes  : t.sched.classes = s.sched.classes
  called   : t.sched.dispatchCalled = true
  spans    : t.spans = s.spans.map (fun r =>
    if ∃ c : Fin 4, r.id ∈ s.sched.classQueues.get c then { r with missed := true, mark := true } else r)
  reports  : ∀ i, Entry.vacated i ∈ t.directory ↔ Entry.vacated i ∈ s.directory
  released : ∀ l ch : Letter, (s.banks.get l).holder = some ch →
    (∃ since f, (s.channels.get ch).activity = .busy (.firing1310 since) f) →
    t.banks.get l = { s.banks.get l with holder := none }
  banks    : ∀ l : Letter, (∀ ch since f, (s.banks.get l).holder = some ch →
    (s.channels.get ch).activity ≠ .busy (.firing1310 since) f) → t.banks.get l = s.banks.get l
  free     : ∀ i : Fin 4, s.buffers.get i = none → t.buffers.get i = none
  held     : ∀ (i : Fin 4) (h : Holding), s.buffers.get i = some h →
    (∀ ch stage f, (s.channels.get ch).activity = .busy stage f → h.holder = f.work.id → h.role = .nm1625) →
    t.buffers.get i = some h
  engine   : (∀ ch since f, (s.channels.get ch).activity ≠ .busy (.firing1310 since) f) → t.engine = s.engine
  rests    : ∀ ch : Letter, (s.channels.get ch).activity.flight? = none → t.channels.get ch = s.channels.get ch
  single   : ∀ (ch : Letter) (stage : Stage) (f : Flight), (s.channels.get ch).activity = .busy stage f →
    (∀ since, stage ≠ .firing1310 since) → f.plan = .single → t.channels.get ch = s.channels.get ch
  dual     : ∀ (ch : Letter) (stage : Stage) (f : Flight), (s.channels.get ch).activity = .busy stage f →
    (∀ since, stage ≠ .firing1310 since) → f.plan = .dual →
    t.channels.get ch = { s.channels.get ch with
      activity := .busy stage { f with plan := .single, single := true } } ∧
    ∀ (i : Fin 4) (h : Holding), t.buffers.get i = some h → ¬(h.holder = f.work.id ∧ h.role = .nm1310)
  cut      : ∀ (ch : Letter) (since : Nat) (f : Flight), (s.channels.get ch).activity = .busy (.firing1310 since) f →
    ∃ g, Cut1310 s t ch f g

/-! ### The link interface (R184, R187) -/

/-- Between commands the link is READY_IDLE with no response or RESPONSE_WAITING with one, no request is half clocked in
and no discard note is left over; READY is therefore high. -/
structure LinkLaw (s : State) : Prop where
  states   : (s.link.state = .readyIdle ∧ s.link.response = none) ∨
    (s.link.state = .responseWaiting ∧ s.link.response.isSome = true)
  buffer   : s.link.requestBuffer = []
  note     : s.link.discardNote = false

/-! ### Settings (R44, R60, R73, R143, R160, R173) -/

/-- The values of a profile record lie in the ranges of R44. -/
structure Profile.InRange (p : Profile) : Prop where
  pulseCode           : p.pulseCode ≤ 5
  spacing             : p.spacing ∈ [1, 2, 4, 8, 16, 32, 64]
  pointCount          : 512 ≤ p.pointCount ∧ p.pointCount ≤ 16384 ∧ p.pointCount % 256 = 0
  shotExponent        : 6 ≤ p.shotExponent ∧ p.shotExponent ≤ 16
  window              : 4 ≤ p.window ∧ p.window ≤ 64
  reflectiveThreshold : 200 ≤ p.reflectiveThreshold ∧ p.reflectiveThreshold ≤ 6000
  endMargin           : 300 ≤ p.endMargin ∧ p.endMargin ≤ 3000

/-- A class's weight is at most 15 and its credit at most its weight, so a strict class holds a credit of 0 (R173). -/
def ClassSetting.InRange (c : ClassSetting) : Prop := c.weight ≤ 15 ∧ c.credit ≤ c.weight

/-- A coil record lies in its ranges (R60, R74). -/
def Coil.InRange (c : Coil) : Prop := c.length ≤ 12000000 ∧ 14000 ≤ c.groupIndex ∧ c.groupIndex ≤ 15000

/-- Every setting lies in the range its rule gives. -/
structure SettingsLaw (s : State) : Prop where
  profiles   : ∀ n : Fin 8, (s.profiles.get n).InRange
  thresholds : 1000 ≤ s.thresholds.live ∧ s.thresholds.live ≤ s.thresholds.overload ∧ s.thresholds.overload ≤ 24082
  severity   : ∀ k : FaultKind, s.table.severity.of k ≤ 3
  times      : s.timeBase.timeOfDay < 86400 ∧ s.timeBase.openTime < 86400 ∧ s.timeBase.closeTime < 86400 ∧
    s.timeBase.windowNumber < 65536
  classes    : ∀ c : Fin 4, (s.sched.classes.get c).InRange
  coils      : ∀ l : Letter, (s.banks.get l).coil.InRange

/-! ### Spans and landmarks (R2, R3, R4, R29) -/

/-- The clamped fields lie in the ranges of R2. -/
structure ClampedFields.InRange (f : ClampedFields) : Prop where
  groupIndex     : 14000 ≤ f.groupIndex ∧ f.groupIndex ≤ 15000
  launchOffset   : f.launchOffset ≤ 4095
  attenuation    : 100 ≤ f.attenuation ∧ f.attenuation ≤ 600
  lossThreshold  : 50 ≤ f.lossThreshold ∧ f.lossThreshold ≤ 3000
  driftThreshold : 50 ≤ f.driftThreshold ∧ f.driftThreshold ≤ 3000
  bendMargin     : 100 ≤ f.bendMargin ∧ f.bendMargin ≤ 3000
  matchTolerance : 100 ≤ f.matchTolerance ∧ f.matchTolerance ≤ 5000
  confirmCount   : 1 ≤ f.confirmCount ∧ f.confirmCount ≤ 7
  clearCount     : 1 ≤ f.clearCount ∧ f.clearCount ≤ 7

/-- The fields that the host writes lie in the ranges of R2. -/
structure SpanRecord.InRange (r : SpanRecord) : Prop where
  id       : 1 ≤ r.id ∧ r.id ≤ 65535
  position : 1 ≤ r.position ∧ r.position ≤ 60
  interval : 1 ≤ r.interval ∧ r.interval ≤ 7
  phase    : r.phase < r.interval
  clamped  : r.clamped.InRange

/-- The span directory is in strictly ascending identifier, holds at most 120 entries (R3), and every record's
host-written fields lie in their ranges (R2). -/
structure DirectoryLaw (s : State) : Prop where
  order  : (s.directory.map Entry.id).Pairwise (· < ·)
  room   : s.directory.length ≤ 120
  fields : ∀ r ∈ s.spans, r.InRange

/-- No two spans are bound to one port, and none to position 0 (R4). -/
structure PortLaw (s : State) : Prop where
  distinct : s.spans.Pairwise (fun a b => a.bank ≠ b.bank ∨ a.position ≠ b.position)
  nonzero  : ∀ r ∈ s.spans, r.position ≠ 0

/-- A landmark list: at most 32 entries in strictly ascending distance, with nothing after a FAR_END (R29). -/
structure ListLaw (l : List Landmark) : Prop where
  short    : l.length ≤ 32
  ordered  : l.Pairwise (fun a b => a.distance < b.distance ∧ a.kind ≠ .farEnd)

/-- The law of the landmark pool (R29, R30): every list obeys its law, and the lists hold at most 2048 entries. -/
structure PoolLaw (s : State) : Prop where
  lists : ∀ r ∈ s.spans, ListLaw r.landmarks
  total : (s.spans.map (fun r => r.landmarks.length)).sum ≤ 2048

/-! ### Banks and channels (R62, R91) -/

/-- The channel is in a busy state (R80). -/
def Activity.isBusy (a : Activity) : Bool := a.flight?.isSome

/-- The law of the test access unit (R62): the two banks have different holders, a holder's channel is busy, and a bank
that is OUT_OF_SERVICE has no holder. -/
structure BankLaw (s : State) : Prop where
  distinct : s.banks.a.holder = none ∨ s.banks.a.holder ≠ s.banks.b.holder
  busy     : ∀ l ch : Letter, (s.banks.get l).holder = some ch → (s.channels.get ch).activity.isBusy = true
  service  : ∀ l : Letter, (s.banks.get l).service = .outOfService → (s.banks.get l).holder = none

/-- While INHIBIT is asserted both channels are INHIBITED, and neither is while it is released (R91, R92, R94). -/
def InhibitLaw (s : State) : Prop :=
  ∀ ch : Letter, (s.channels.get ch).activity.isInhibited = s.inputs.inhibit

/-! ### The scheduler (R170) -/

/-- While no window is open, the class queues are empty. -/
def QueueLaw (s : State) : Prop :=
  s.timeBase.windowOpen = false → ∀ c : Fin 4, s.sched.classQueues.get c = []

/-! ### A job dispatched to a channel (R178) -/

/-- The record of the job as it starts at the channel (R178, R47, R48, R81): dispatch time and channel, no shots, no flags,
nothing recorded at a hand-on, the span's revision or the coil copy, the snapshot of its profile with its derived values
(the pulse bins of R45, N, the range in bins, the guard length of R50 and the shot period of R52, in ns), and the plan. -/
structure StartsAs (s : State) (ch : Letter) (j : Job) (f : Flight) : Prop where
  time      : f.dispatchTime = s.now ∧ f.channel = ch
  clear     : f.shotsDone = 0 ∧ f.short = false ∧ f.single = false ∧ f.live = false ∧ f.cancelled = false ∧
    f.recorded = none
  id        : f.work.id = j.id
  test      : ∀ kind id, j = .test kind id → ∀ r ∈ s.spans, r.id = id → DirectoryLaw s →
    f.work = .test kind id r.revision ∧ f.snapshot.number = r.profile ∧ f.snapshot.profile = s.profiles.get r.profile ∧
    f.plan = (if s.timeBase.windowOpen = true ∧ s.fitted ch = true then .dual else .single)
  verify    : ∀ own, j = .verify own → f.work = .verify own (s.banks.get own).coil ∧ f.snapshot.number = 7 ∧
    f.snapshot.profile = s.profiles.x7 ∧ f.plan = .single
  shots     : f.snapshot.shots = 2 ^ f.snapshot.profile.shotExponent
  rangeBins : f.snapshot.rangeBins = f.snapshot.profile.pointCount * f.snapshot.profile.spacing
  pulseBins : ∀ k, ([4, 12, 40, 120, 400, 1200] : List Nat)[f.snapshot.profile.pulseCode]? = some k →
    f.snapshot.pulseBins = k
  guard     : f.snapshot.guard =
    (f.snapshot.pulseBins + f.snapshot.profile.spacing - 1) / f.snapshot.profile.spacing + 2
  period    : f.snapshot.shotPeriod =
    f.snapshot.profile.pointCount * f.snapshot.profile.spacing * 5 / 2 + 2000

/-- The job is no longer in the queue or the verify place that it was in (R178). -/
structure LeavesItsQueue (j : Job) (t : State) : Prop where
  scheduled : ∀ c id, j = .test (.scheduled c) id → ∀ k : Fin 4, id ∉ t.sched.classQueues.get k
  demand    : ∀ id, j = .test .demand id ∨ j = .test .learn id → ∀ d ∈ t.sched.demandQueue, d.span ≠ id
  verify    : ∀ own, j = .verify own → t.sched.verifyPlaces.get own = false

/-- Buffer `i` is the lowest-numbered free buffer from number `k` up. -/
def State.FirstFreeFrom (s : State) (k : Nat) (i : Fin 4) : Prop :=
  k ≤ i.val ∧ s.buffers.get i = none ∧ ∀ m : Fin 4, k ≤ m.val → m < i → (s.buffers.get m).isSome = true

/-- The job holds the buffers that its plan takes (R82): the lowest-numbered free one with role 1625, and for a DUAL plan
the next free one with role 1310, both EMPTY. -/
structure TakesBuffers (s t : State) (j : JobId) (plan : Plan) (i k : Fin 4) : Prop where
  first  : s.FirstFreeFrom 0 i ∧ t.buffers.get i = some { holder := j, role := .nm1625, trace := none }
  second : plan = .dual →
    s.FirstFreeFrom (i.val + 1) k ∧ t.buffers.get k = some { holder := j, role := .nm1310, trace := none }

/-! ### A dispatch pass (R174 to R181) -/

/-- The bank and position that a job needs: those of its span's port as it stands, or position 0 of the bank of its verify
channel (R75, R175). -/
structure NeedsPort (s : State) (j : Job) (l : Letter) (position : Nat) : Prop where
  test   : ∀ kind id, j = .test kind id → ∃ r, s.findSpan id = some r ∧ r.bank = l ∧ r.position = position
  verify : ∀ own, j = .verify own → l = own ∧ position = 0

/-- The buffers that the job's plan on the channel needs (R81, R175). -/
def State.buffersNeeded (s : State) (ch : Letter) (j : Job) : Nat :=
  match j with
  | .test _ _ => if s.timeBase.windowOpen = true ∧ s.fitted ch = true then 2 else 1
  | .verify _ => 1

/-- The job is eligible for the channel, by the four points of R175. -/
structure EligibleOn (s : State) (ch : Letter) (j : Job) : Prop where
  awake   : ∀ c : Letter, (s.channels.get c).activity ≠ .inhibited
  bank    : ∃ l position, NeedsPort s j l position ∧ s.present l = true ∧ (s.banks.get l).service = .inService ∧
    ∀ c, c ≠ ch → (s.banks.get l).holder ≠ some c
  buffers : s.buffersNeeded ch j ≤ (([0, 1, 2, 3] : List (Fin 4)).filter (fun i => (s.buffers.get i).isNone)).length
  own     : ∀ c, j = .verify c → c = ch

/-- The job has left its queue or verify place, and nothing else of the queues and the classes changed (R178). -/
structure QueueLeft (j : Job) (s t : State) : Prop where
  classes   : t.sched.classes = s.sched.classes
  scheduled : ∀ c id, j = .test (.scheduled c) id →
    t.sched.classQueues = s.sched.classQueues.map (fun q => q.filter (fun i => i != id)) ∧
    t.sched.demandQueue = s.sched.demandQueue ∧ t.sched.verifyPlaces = s.sched.verifyPlaces
  demand    : ∀ id, j = .test .demand id ∨ j = .test .learn id →
    t.sched.demandQueue = s.sched.demandQueue.filter (fun d => d.span != id) ∧
    t.sched.classQueues = s.sched.classQueues ∧ t.sched.verifyPlaces = s.sched.verifyPlaces
  verify    : ∀ own, j = .verify own → t.sched.verifyPlaces = s.sched.verifyPlaces.set own false ∧
    t.sched.classQueues = s.sched.classQueues ∧ t.sched.demandQueue = s.sched.demandQueue

/-- From `s` to `t` the job has started as `f` and taken its buffers and nothing more: the other buffers, the directory and
the call for dispatch stand. -/
structure TakesUp (s t : State) (ch : Letter) (j : Job) (f : Flight) : Prop where
  starts    : StartsAs s ch j f
  buffers   : ∃ i k : Fin 4, TakesBuffers s t j.id f.plan i k ∧
    ∀ m, m ≠ i → (f.plan = .dual → m ≠ k) → t.buffers.get m = s.buffers.get m
  directory : t.directory = s.directory
  called    : t.sched.dispatchCalled = s.sched.dispatchCalled

/-- From `s` to `t` the job `j`, which needs bank `l` at a position, was dispatched to the channel in one act (R178), by what
the bank was when it was taken (R63): in SWITCHING where the bank was MOVING or elsewhere; and, the settle completion being
at the take where the bank was STILL at the position, guarded where the sense reports the position (R64), and ended with
BANK_FAULT where it does not (R65). -/
structure DispatchesTo (senses : Letter → Option Nat) (ch : Letter) (j : Job) (l : Letter) (position : Nat)
    (s t : State) : Prop where
  frame   : KeepsBut [.buffers, .sched, .banks, .channels, .directory] s t
  queue   : QueueLeft j s t
  away    : (s.banks.get l).motion ≠ .still ∨ (s.banks.get l).commanded ≠ position →
    ∃ f, TakesUp s t ch j f ∧
      t.channels = s.channels.set ch { s.channels.get ch with activity := .busy .switching f } ∧
      t.banks = s.banks.set l { s.banks.get l with
        holder := some ch
        commanded := position
        motion := if (s.banks.get l).commanded = position then (s.banks.get l).motion
          else .moving (s.now + 30000000) }
  matched : (s.banks.get l).motion = .still → (s.banks.get l).commanded = position → senses l = some position →
    ∃ f, TakesUp s t ch j f ∧
      t.channels = s.channels.set ch { s.channels.get ch with activity := .busy (.guard (s.now + 2000000)) f } ∧
      t.banks = s.banks.set l { s.banks.get l with holder := some ch, sensed := some position }
  faulted : (s.banks.get l).motion = .still → (s.banks.get l).commanded = position → senses l ≠ some position →
    ∃ f, StartsAs s ch j f ∧ Ended f.work .bankFault s t ∧ t.sched.dispatchCalled = true ∧
      t.channels = s.channels.set ch { s.channels.get ch with activity := .idle, accumulator := [] } ∧
      (∀ m : Letter, t.banks.get m =
        if m = l then { s.banks.get l with
          holder := none, sensed := senses l, service := .outOfService, mark := true }
        else if (s.banks.get m).holder = some ch then { s.banks.get m with holder := none }
        else s.banks.get m) ∧
      ∀ i : Fin 4, t.buffers.get i = (s.buffers.get i).filter (fun h => h.holder != j.id)

/-- From `s` to `t` the channel was considered (R174, R176): an IDLE channel takes the job chosen for it, with the credits
as the choice leaves them, and where none is chosen, or the channel is not IDLE, nothing changes. -/
structure Considers (senses : Letter → Option Nat) (ch : Letter) (s t : State) : Prop where
  stands : (s.channels.get ch).activity ≠ .idle ∨ (s.choose ch).job = none → t = s
  takes  : (s.channels.get ch).activity = .idle → ∀ j, (s.choose ch).job = some j →
    ∃ l position, NeedsPort s j l position ∧
      DispatchesTo senses ch j l position { s with sched := (s.choose ch).sched } t

/-- From `s` to `u` the job at the channel was aborted (R90). -/
structure Aborts (ch : Letter) (f : Flight) (s u : State) : Prop where
  frame   : KeepsBut [.channels, .banks, .buffers, .sched] s u
  givesUp : GivesUp ch f (if s.inputs.inhibit then .inhibited else .idle) s u

/-- The job `f` at the channel qualifies as a victim of the DEMAND job of span `demand` (R180): it is SCHEDULED, of span `id`
and a pre-emptible class `c`, and the DEMAND job would be eligible with the victim's channel, bank and buffers free. -/
structure Qualifies (s : State) (demand : Nat) (ch : Letter) (f : Flight) (c : Fin 4) (id : Nat) : Prop where
  runs     : (s.channels.get ch).activity.flight? = some f
  work     : ∃ rev, f.work = .test (.scheduled c) id rev
  cls      : (s.sched.classes.get c).preemptible = true
  eligible : ∃ u, Aborts ch f s u ∧ EligibleOn u ch (.test .demand demand)

/-- The job is the victim (R180): it qualifies, and every other job that does is of a lower class, or of its class and
dispatched earlier, or at the same time and it is the one on channel B. -/
structure IsVictim (s : State) (demand : Nat) (ch : Letter) (f : Flight) (c : Fin 4) (id : Nat) : Prop where
  qualifies : Qualifies s demand ch f c id
  chosen    : ∀ other g k i, other ≠ ch → Qualifies s demand other g k i →
    k < c ∨ (k = c ∧ (g.dispatchTime < f.dispatchTime ∨ (g.dispatchTime = f.dispatchTime ∧ ch = .B)))

/-- From `s` to `t` pre-emption was considered for the DEMAND job of span `demand` (R180, R181): no job qualifies and
nothing changes; or the victim is aborted, goes to the head of the class queue of its span's class (of its own class where
its span is gone, log entry 21), and the DEMAND job is dispatched to its channel. -/
def Preempts (senses : Letter → Option Nat) (demand : Nat) (s t : State) : Prop :=
  ((∀ ch f c id, ¬ Qualifies s demand ch f c id) ∧ t = s) ∨
  ∃ ch f c id u k l position, IsVictim s demand ch f c id ∧ Aborts ch f s u ∧
    k = ((s.findSpan id).map SpanRecord.cls).getD c ∧
    u.sched = { s.sched with
      classQueues := s.sched.classQueues.set k (id :: s.sched.classQueues.get k), dispatchCalled := true } ∧
    NeedsPort u (.test .demand demand) l position ∧ DispatchesTo senses ch (.test .demand demand) l position u t

/-- Pre-emption was considered for one DEMAND job after another, each in the state that the one before it left. -/
def PreemptsInTurn (senses : Letter → Option Nat) : List Nat → State → State → Prop
  | [], s, t => t = s
  | demand :: rest, s, t => ∃ u, Preempts senses demand s u ∧ PreemptsInTurn senses rest u t

/-- The spans of the DEMAND jobs that wait, in queue order (R180). -/
def State.waitingDemand (s : State) : List Nat :=
  (s.sched.demandQueue.filter (fun d => !d.learn)).map DemandJob.span

/-- What the position senses report in a pass. -/
def sensesOf (a b : Sense) : Letter → Option Nat
  | .A => a.map Fin.val
  | .B => b.map Fin.val

/-- What the position senses report in the pass of a window open, at this draw: free values (log entry 27). -/
def passSenses (draws : Nat) : Letter → Option Nat := sensesOf (Config.senseA draws) (Config.senseB draws)

/-- From `s` to `t` a dispatch pass has run (R174, R180): the call is answered, channel A is considered, then channel B, and
then, while a window is open, pre-emption for the DEMAND jobs that still wait. The clock moves by 1 ns (log entry 4). -/
def Passes (senses : Letter → Option Nat) (s t : State) : Prop :=
  ∃ u v w, Considers senses .A { s with sched := { s.sched with dispatchCalled := false } } u ∧
    Considers senses .B u v ∧
    PreemptsInTurn senses (if v.timeBase.windowOpen then v.waitingDemand else []) v w ∧
    t = { w with now := s.now + 1 }

/-- The span is ACTIVE, and a SPAN_HOLD of it waits directly behind the event under way, while READY is high: the hold comes
together with the event (R14, log entry 28). -/
structure HeldTogether (s : State) (id : Nat) : Prop where
  ready  : s.ready = true
  active : ∃ r, s.findSpan id = some r ∧ r.state = .active
  waits  : ∃ (k : U16) (rest : List Instr), s.pending = .spanHold k :: rest ∧ k.toNat = id

/-- From `u` to `v` nothing changed but the class queues, and each is now what `f` makes of it. -/
def ClassQueuesBecome (f : Fin 4 → List Nat → List Nat) (u v : State) : Prop :=
  KeepsBut [.sched] u v ∧ v.sched = { u.sched with classQueues := v.sched.classQueues } ∧
    ∀ c : Fin 4, v.sched.classQueues.get c = f c (u.sched.classQueues.get c)

/-- From `s` to `t` a window has opened at the instant `now`, in one act (R164): steps 1 to 4, which change these parts, and
then a dispatch pass in the state `u` that they leave, in which the position senses report what is drawn. The pass passes
over the jobs of the spans `held` together with the open (R14): they stand behind the others of their class queues after it.
The link alone may change besides. -/
def OpensAndPasses (held : List Nat) (parts : List Part) (now : Nat) (s t : State) : Prop :=
  ∃ u u' v v', WindowOpens s u ∧ u.now = now ∧ KeepsBut (.draws :: parts) s u ∧ u.draws = s.draws + 1 ∧
    ClassQueuesBecome (fun _ q => q.filter (fun i => !held.contains i)) u u' ∧
    Passes (passSenses s.draws) u' v ∧
    ClassQueuesBecome (fun c q => q ++ (u.sched.classQueues.get c).filter (fun i => held.contains i)) v v' ∧
    KeepsBut [.link] v' t

/-- The command opens the window in the state (R161): it is taken there, the window is CLOSED, and the time of day that the
command leaves is inside the window that it leaves. -/
def OpensTheWindow (s : State) : Instr → Prop
  | .timeAdvance => s.timeBase.windowOpen = false ∧
    Inside ((s.timeBase.timeOfDay + 1) % 86400) s.timeBase.openTime s.timeBase.closeTime
  | .clockSet v => s.ready = true ∧ v.toNat ≤ 86399 ∧ s.timeBase.windowOpen = false ∧
    Inside v.toNat s.timeBase.openTime s.timeBase.closeTime
  | .windowSet o c => s.ready = true ∧ o.toNat ≤ 86399 ∧ c.toNat ≤ 86399 ∧ s.timeBase.windowOpen = false ∧
    Inside s.timeBase.timeOfDay o.toNat c.toNat
  | _ => False

/-- From `s` to `u`, over the steps of two commands, the span of record `r` became HELD, and it has no job and no new MISSED
flag (R14). -/
def EndsHeld (r : SpanRecord) (s u : State) : Prop :=
  ∃ t, step s = .next t ∧ step t = .next u ∧ u.jobPlace r.id = none ∧
    ∃ q ∈ u.spans, q.id = r.id ∧ q.state = .held ∧ q.missed = r.missed

/-! ### The condition table (R140, R141, R142) -/

/-- The law of the condition table: at most 96 conditions, hits at most 15, tags distinct and in 1..65535, and the tag
counter in 0..65535. -/
structure TableLaw (s : State) : Prop where
  room    : s.table.conditions.length ≤ 96
  hits    : ∀ c ∈ s.table.conditions, c.hits ≤ 15
  unique  : (s.table.conditions.map Condition.tag).Nodup
  range   : ∀ c ∈ s.table.conditions, 1 ≤ c.tag ∧ c.tag ≤ 65535
  counter : s.table.tagCounter ≤ 65535

/-- The law of the condition table on misses and on open conditions (R140, R141): misses are at most 7, a CLEARING
condition has misses left before the greatest clear count (R148), a SUSPECT condition has none, and every open condition
names an existing span. -/
structure ConditionLaw (s : State) : Prop where
  misses   : ∀ c ∈ s.table.conditions, c.misses ≤ 7
  clearing : ∀ c ∈ s.table.conditions, c.state = .clearing → c.misses ≤ 6
  suspect  : ∀ c ∈ s.table.conditions, c.state = .suspect → c.misses = 0
  named    : ∀ c ∈ s.table.conditions, c.state.isOpen = true → ∃ r ∈ s.spans, r.id = c.span

/-- The span values that the current job copied lie in the ranges of R2 (R107); the clear count among them is at most 7. -/
def InputLaw (s : State) : Prop :=
  ∀ a c, s.engine.current = some a → a.input.subject = .span c → c.fields.InRange

end Sys2Proof.Machine
end

