-- ==== Sys2Proof/WellFormed.lean ====
section
/-! DEFINITION. Which commands can arise: the sizes and ranges that the spec itself puts on what a command carries.
A request body with values out of range is well-formed: its own rule clamps or refuses it. -/

namespace Sys2Proof

/-- The greatest sum of the 800,000 samples of a guard (R69). -/
def guardSumMax : Nat := 52428000000

/-- A number of samples that some profile's range has: P of 512 to 16384 in steps of 256, times s (R44, R51). -/
def shotLengthOk (n : Nat) : Bool := 512 ≤ n && n ≤ 1048576 && n % 256 == 0

/-- The frame is one that a request period can bring and that R186 refuses. -/
def refusedFrame (frame : List Byte) : Bool :=
  frame.headD 0 != 0 &&
    match checkFrame frame with
    | .refused _ => true
    | .passed _ _ => false

/-- The command is one that can reach the part. -/
def Instr.wellFormed : Instr → Bool
  | .spanPut _ => true
  | .spanGet _ => true
  | .spanByPort _ _ => true
  | .spanNext _ => true
  | .spanHold _ => true
  | .spanResume _ => true
  | .spanRetire _ => true
  | .spanLearn _ => true
  | .marksAppend body => body.length ≤ 512
  | .marksRead _ _ => true
  | .marksClear _ => true
  | .testNow _ => true
  | .testCancel _ => true
  | .condGet _ => true
  | .condNext _ _ => true
  | .condAck _ => true
  | .condRetire _ => true
  | .severitySet _ => true
  | .profileSet _ => true
  | .profileGet _ => true
  | .clockSet _ => true
  | .windowSet _ _ => true
  | .classSet _ _ _ => true
  | .guardSet _ _ => true
  | .coilSet _ _ _ => true
  | .bankRestore _ _ => true
  | .statusGet => true
  | .changesRead => true
  | .attentionSet _ _ _ => true
  | .restart => true
  | .frameRefused frame => refusedFrame frame
  | .readPeriod clocked => 1 ≤ clocked
  | .ignoredPeriod _ => true
  | .powerOn _ _ => true
  | .resetPin _ _ => true
  | .inhibitAsserted => true
  | .inhibitReleased => true
  | .timeAdvance => true
  | .settleCompletion _ _ => true
  | .guardCompletion _ sum => sum ≤ guardSumMax
  | .shotAccumulated _ samples => shotLengthOk samples.length
  | .acquisitionCompletion _ => true
  | .dispatchPass _ _ => true
  | .analysisTake => true
  | .analysisCompletion => true

end Sys2Proof
end

