-- ==== Sys2Proof/Certificates/Slice0/Obligations.lean ====
section
/-! DEFINITION. The statements for the provers: what each command does and leaves, the laws that every step keeps, and the
arithmetic of the rules. -/

open Sys2Proof Sys2Proof.Machine

/-! ### The step -/

/-- A step takes the command at the front of the queue and is that command's effect on the state with the queue's rest. -/
def Obligations.StepRunsTheFrontCommand : Prop :=
  ∀ (c : Instr) (rest : List Instr) (s : State), step (s.withPending (c :: rest)) = exec c (s.withPending rest)

/-! ### The link interface -/

/-- R186: the checks of a request frame in their order, each answered with its refusal, no block reached. -/
def Obligations.FrameChecksGoInOrder : Prop :=
  ∀ (frame : List Byte) (s : State), s.ready = true → frame.headD 0 ≠ 0 →
    (frame.length < 3 → TurnsAway (.frameRefused frame) s .frameShort) ∧
    ∀ (code hi lo : Byte) (rest : List Byte), frame = code :: hi :: lo :: rest →
      ((∀ row ∈ requestRows, row.code ≠ code.toNat) → TurnsAway (.frameRefused frame) s .badRequest) ∧
      ∀ row ∈ requestRows, row.code = code.toNat →
        (512 < 256 * hi.toNat + lo.toNat → TurnsAway (.frameRefused frame) s .badRequest) ∧
        (256 * hi.toNat + lo.toNat ≤ 512 → rest.length < 256 * hi.toNat + lo.toNat →
          TurnsAway (.frameRefused frame) s .frameShort) ∧
        (256 * hi.toNat + lo.toNat ≤ 512 → 256 * hi.toNat + lo.toNat ≤ rest.length →
          ∀ m, row.body = .fixed m → m ≠ 256 * hi.toNat + lo.toNat → TurnsAway (.frameRefused frame) s .badField)

/-- Every well-formed request is read back from its frame with every operand. The position sense that BANK_RESTORE
carries is no part of the frame, so the frame is read with the same sense. -/
def Obligations.RequestFramesRoundTrip : Prop :=
  ∀ (i : Instr) (sense : Sense) (frame : List Byte), i.wellFormed = true →
    (∀ b e, i = .bankRestore b e → e = sense) → encodeFrame i = some frame → decodeFrame sense frame = some i

/-- R190: a request whose response is a refusal has left every record as it was. -/
def Obligations.RefusedRequestsChangeNoRecord : Prop :=
  ∀ (i : Instr) (s : State), s.ready = true → (requestBody i).isSome = true →
    ∃ t r, exec i s = .next t ∧ t.link.response = some r ∧
      (r.status.taken = false → Answered s t r.status [] ∧ KeepsBut [.link] s t)

/-- R185: while READY is low a request, a read and an ignored period change nothing and clock out 0xFF in every byte; an
IGNORED_PERIOD does so whatever READY is. -/
def Obligations.NothingPassesWhileReadyIsLow : Prop :=
  (∀ (i : Instr) (s : State), s.ready = false → ((requestBody i).isSome = true ∨ ∃ n, i = .readPeriod n) →
    ∃ n, exec i s = .next { s with link := { s.link with dataOut := List.replicate n 0xFF } }) ∧
  ∀ (n : Nat) (s : State),
    exec (.ignoredPeriod n) s = .next { s with link := { s.link with dataOut := List.replicate n 0xFF } }

/-- R191: ATTN is asserted exactly when some enabled category has a set change mark. -/
def Obligations.AttnFollowsTheEnabledMarks : Prop :=
  ∀ s : State, s.attn = true ↔
    (s.link.enables.span = true ∧ ((∃ r ∈ s.spans, r.mark = true) ∨ ∃ i, Entry.vacated i ∈ s.directory)) ∨
    (s.link.enables.condition = true ∧ ∃ c ∈ s.table.conditions, c.mark = true) ∨
    (s.link.enables.unit = true ∧ ∃ l : Letter, (s.channels.get l).mark = true ∨ (s.banks.get l).mark = true)

/-- R188: what a read period clocks out, and what becomes of the pending response. -/
def Obligations.ReadPeriodsClockOutTheResponse : Prop :=
  ∀ (n : Nat) (s : State), s.ready = true → 1 ≤ n →
    (s.link.response = none →
      exec (.readPeriod n) s = .next { s with link := { s.link with dataOut := List.replicate n 0xFF } }) ∧
    ∀ r, s.link.response = some r →
      ∃ t, exec (.readPeriod n) s = .next t ∧ KeepsBut [.link] s t ∧ t.ready = true ∧
        t.link.dataOut.length = n ∧ t.link.dataOut[0]? = some 0xFF ∧
        (∀ k, k < r.frame.length → k + 1 < n → t.link.dataOut[k + 1]? = r.frame[k]?) ∧
        (∀ k, r.frame.length ≤ k → k + 1 < n → t.link.dataOut[k + 1]? = some 0xFF) ∧
        (r.frame.length + 1 ≤ n → t.link.response = none ∧ t.link.state = .readyIdle) ∧
        (n < r.frame.length + 1 → t.link.response = some r ∧ t.link.state = .responseWaiting) ∧
        t.link.enables = s.link.enables ∧ t.link.discardNote = s.link.discardNote ∧
        t.link.requestBuffer = s.link.requestBuffer

/-- R192: ATTENTION_SET replaces the three enables; a value other than on or off is refused. -/
def Obligations.AttentionSetReplacesTheEnables : Prop :=
  ∀ (a b c : Byte) (s : State), s.ready = true →
    (a.toNat ≤ 1 → b.toNat ≤ 1 → c.toNat ≤ 1 →
      ∃ t, exec (.attentionSet a b c) s = .next t ∧ KeepsBut [.link] s t ∧
        AnsweredWith { span := a == 1, condition := b == 1, unit := c == 1 } s t .ok [a, b, c] ∧
        (t.attn = true ↔
          (a = 1 ∧ s.directory.any Entry.marked = true) ∨ (b = 1 ∧ ∃ k ∈ s.table.conditions, k.mark = true) ∨
          (c = 1 ∧ ∃ l : Letter, (s.channels.get l).mark = true ∨ (s.banks.get l).mark = true))) ∧
    (1 < a.toNat ∨ 1 < b.toNat ∨ 1 < c.toNat → TurnsAway (.attentionSet a b c) s .badField)

/-- R193, R194: CHANGES_READ returns the first sixteen marked items of the enabled categories, clears their marks, lets
their vacated reports leave and frees their RETIRED conditions, and leaves every other item as it was. -/
def Obligations.ChangesReadReturnsTheFirstSixteen : Prop :=
  ∀ s : State, s.ready = true → DirectoryLaw s → TableLaw s →
    ∃ t, exec .changesRead s = .next t ∧
      Answered s t .ok ([byte (s.enabledItems.take 16).length] ++ be16 (s.enabledItems.drop 16).length ++
        (s.enabledItems.take 16).flatMap (itemBytes s)) ∧
      KeepsBut [.link, .directory, .table, .channels, .banks] s t ∧
      t.enabledItems = s.enabledItems.drop 16 ∧
      t.spans = s.spans.map
        (fun r => if Item.span (.span r) ∈ s.enabledItems.take 16 then { r with mark := false } else r) ∧
      (∀ i, Entry.vacated i ∈ t.directory ↔
        (Entry.vacated i ∈ s.directory ∧ Item.span (.vacated i) ∉ s.enabledItems.take 16)) ∧
      t.table.conditions = (s.table.conditions.filter
          (fun c => !(decide (Item.condition c ∈ s.enabledItems.take 16) && c.state == .retired))).map
        (fun c => if Item.condition c ∈ s.enabledItems.take 16 then { c with mark := false } else c) ∧
      t.table.tagCounter = s.table.tagCounter ∧ t.table.severity = s.table.severity ∧
      ∀ l : Letter,
        t.channels.get l = { s.channels.get l with
          mark := (s.channels.get l).mark && !decide (Item.channel l ∈ s.enabledItems.take 16) } ∧
        t.banks.get l = { s.banks.get l with
          mark := (s.banks.get l).mark && !decide (Item.bank l ∈ s.enabledItems.take 16) }

/-- R196, R203: STATUS_GET answers the status summary of 86 bytes, every field of it at its offset, and changes no
record. -/
def Obligations.StatusGetAnswersTheSummary : Prop :=
  ∀ s : State, s.ready = true →
    ReadsOut .statusGet s (statusSummaryBytes s) ∧ SummaryOf s (statusSummaryBytes s)

/-! ### RESTART and the resets -/

/-- R197, with R27, R77, R98, R106, R159 and R183: RESTART ends every job and keeps the records. -/
def Obligations.RestartEndsEveryJob : Prop :=
  ∀ s : State, s.ready = true →
    ∃ t, exec .restart s = .next t ∧ Answered s t .ok [] ∧
      KeepsBut [.link, .directory, .sched, .banks, .channels, .buffers, .engine, .table] s t ∧
      (∀ c : Fin 4, t.sched.classQueues.get c = [] ∧
        t.sched.classes.get c = { s.sched.classes.get c with credit := (s.sched.classes.get c).weight }) ∧
      t.sched.demandQueue = [] ∧ t.sched.verifyPlaces = ⟨false, false⟩ ∧
      t.engine = { queue := [], current := none } ∧ (∀ i : Fin 4, t.buffers.get i = none) ∧
      (∀ l : Letter, t.banks.get l = { s.banks.get l with holder := none }) ∧
      (∀ ch : Letter, t.channels.get ch =
        match (s.channels.get ch).activity with
        | .busy _ _ => { s.channels.get ch with
            activity := if s.inputs.inhibit then .inhibited else .idle, accumulator := [] }
        | .idle => s.channels.get ch
        | .inhibited => s.channels.get ch) ∧
      t.spans = (s.spans.filter (fun r => r.state != .retiring)).map (fun r =>
        { r with
          state := if r.state = .learning then r.resume else r.state,
          missed := r.missed || decide (r.id ∈ s.scheduledSpans),
          mark := r.mark || decide (r.state = .learning) || decide (r.id ∈ s.scheduledSpans) }) ∧
      (∀ i, Entry.vacated i ∈ t.directory ↔
        (Entry.vacated i ∈ s.directory ∨ ∃ r ∈ s.spans, r.id = i ∧ r.state = .retiring)) ∧
      t.table.conditions = s.table.conditions.map (fun c =>
        if (∃ r ∈ s.spans, r.id = c.span ∧ r.state = .retiring) ∧ c.state.isOpen = true then
          { c with state := .retired, mark := true } else c) ∧
      t.table.tagCounter = s.table.tagCounter ∧ t.table.severity = s.table.severity

/-- R26, R43, R46, R73, R77, R98, R99, R159, R160, R173, R182, R184: what power-on and the RESET pin leave. The model's own
clock starts again at 0 (log entry 1), the waiting commands stay (log entry 23), and the reset is one instant (log entry 29).
-/
def Obligations.ResetsLeaveTheResetValues : Prop :=
  ∀ (i : Instr) (straps : Straps) (inhibit : Bool) (s : State),
    i = .powerOn straps inhibit ∨ i = .resetPin straps inhibit →
    ∃ t, exec i s = .next t ∧ t.pending = s.pending ∧ t.now = 0 ∧ t.directory = [] ∧
      t.inputs = { inhibit := inhibit, straps := straps } ∧
      t.link.state = .readyIdle ∧ t.link.requestBuffer = [] ∧ t.link.response = none ∧ t.link.discardNote = false ∧
      t.link.enables = { span := false, condition := false, unit := false } ∧ t.attn = false ∧
      t.profiles = ⟨⟨0, 1, 4096, 12, 8, 1000, 1000⟩, ⟨2, 4, 8192, 13, 12, 1000, 1000⟩, ⟨3, 8, 8192, 14, 16, 1000, 1000⟩,
        ⟨4, 16, 8192, 15, 16, 1500, 1000⟩, ⟨5, 32, 8192, 16, 24, 1500, 1500⟩, ⟨3, 16, 16384, 15, 16, 1000, 1000⟩,
        ⟨4, 64, 4096, 16, 16, 1500, 1500⟩, ⟨2, 2, 2048, 10, 8, 800, 800⟩⟩ ∧
      t.timeBase = ⟨0, 0, 0, false, 0, t.now + 1000000000⟩ ∧
      t.sched.classQueues = ⟨[], [], [], []⟩ ∧ t.sched.demandQueue = [] ∧ t.sched.verifyPlaces = ⟨false, false⟩ ∧
      t.sched.classes = ⟨⟨0, false, 0⟩, ⟨8, true, 8⟩, ⟨4, true, 4⟩, ⟨1, true, 1⟩⟩ ∧
      t.thresholds = { overload := 20000, live := 9000 } ∧ t.buffers = ⟨none, none, none, none⟩ ∧
      t.engine = { queue := [], current := none } ∧
      t.table = { conditions := [], tagCounter := 1, severity := ⟨3, 2, 1, 1, 0⟩ } ∧
      (∀ ch : Letter, t.channels.get ch =
        ⟨if inhibit then .inhibited else .idle, [], 0, false, false⟩) ∧
      t.banks.a = { service := .inService, holder := none, commanded := 0, motion := .moving (t.now + 30000000),
                    sensed := none, coil := ⟨0, 14680⟩, mark := false } ∧
      (straps.bankB = true → t.banks.b = t.banks.a) ∧
      (straps.bankB = false → t.banks.b.service = .inService ∧ t.banks.b.holder = none ∧ t.banks.b.commanded = 0 ∧
        t.banks.b.motion = .still ∧ t.banks.b.sensed = some 0 ∧ t.banks.b.coil.length = 0 ∧ t.banks.b.mark = false)

/-! ### The laws -/

/-- The state right after reset obeys every law, the port law of R4 and the laws of conditions, of the input copy and of
jobs among them. -/
def Obligations.ResetSatisfiesEveryLaw : Prop :=
  LinkLaw State.reset ∧ SettingsLaw State.reset ∧ InhibitLaw State.reset ∧ QueueLaw State.reset ∧
  DirectoryLaw State.reset ∧ PortLaw State.reset ∧ TableLaw State.reset ∧ ConditionLaw State.reset ∧
  InputLaw State.reset ∧ PoolLaw State.reset ∧ BankLaw State.reset ∧ JobLaw State.reset

/-- R184, R187: between commands the link waits with a response or is idle without one. -/
def Obligations.EveryStepKeepsTheLinkLaw : Prop :=
  ∀ s t : State, LinkLaw s → step s = .next t → LinkLaw t

/-- R44, R60, R73, R74, R143, R160, R173: every setting stays in its range, the coil records among them. -/
def Obligations.EveryStepKeepsTheSettingsLaw : Prop :=
  ∀ s t : State, SettingsLaw s → step s = .next t → SettingsLaw t

/-- R91, R166, R170: both channels are INHIBITED exactly while INHIBIT is asserted, and the class queues are empty while no
window is open. R168, R82: each span and each verify place has at most one job, every job names an existing span, and each
held buffer is held by one dispatched job, which holds at most one for each wavelength. -/
def Obligations.EveryStepKeepsTheInhibitAndQueueLaws : Prop :=
  ∀ s t : State, step s = .next t →
    (InhibitLaw s → InhibitLaw t) ∧ (QueueLaw s → QueueLaw t) ∧ (DirectoryLaw s → JobLaw s → JobLaw t)

/-- R2, R3: the span directory stays in strictly ascending identifier with at most 120 entries, every field in range. R4:
no two spans are bound to one port, and none to position 0. -/
def Obligations.EveryStepKeepsTheDirectoryLaw : Prop :=
  ∀ s t : State, DirectoryLaw s → step s = .next t → DirectoryLaw t ∧ (PortLaw s → PortLaw t)

/-- R140, R142: the condition table keeps at most 96 conditions, hits at most 15, and distinct tags other than 0. R140,
R141: while the input copy holds a clear count in its range, which every step keeps too, misses stay at most 7, a SUSPECT
condition has none, and every open condition names an existing span. -/
def Obligations.EveryStepKeepsTheTableLaw : Prop :=
  ∀ s t : State, step s = .next t →
    (TableLaw s → TableLaw t) ∧ (DirectoryLaw s → InputLaw s → InputLaw t) ∧
    (InputLaw s → ConditionLaw s → ConditionLaw t)

/-- R29, R30: every landmark list stays ordered, at most 32 long, with its FAR_END last, and the lists never pass 2048
entries. -/
def Obligations.EveryStepKeepsThePoolLaw : Prop :=
  ∀ s t : State, DirectoryLaw s → PoolLaw s → step s = .next t → PoolLaw t

/-- R62: each bank is held by at most one busy channel, each channel holds at most one bank, and a bank out of service has
no holder. -/
def Obligations.EveryStepKeepsTheBankLaw : Prop :=
  ∀ s t : State, BankLaw s → step s = .next t → BankLaw t

/-! ### Span requests -/

/-- R11, R12, R13: SPAN_GET, SPAN_BY_PORT and SPAN_NEXT answer with the record of the span that they name, see no vacated
report, and change nothing. -/
def Obligations.SpanReadsAnswerTheRecord : Prop :=
  ∀ s : State, s.ready = true → DirectoryLaw s → PortLaw s →
    (∀ id : U16,
      (id.toNat = 0 → TurnsAway (.spanGet id) s .badField) ∧
      (id.toNat ≠ 0 → (∀ r ∈ s.spans, r.id ≠ id.toNat) → TurnsAway (.spanGet id) s .notFound) ∧
      (∀ r ∈ s.spans, r.id = id.toNat → ReadsOut (.spanGet id) s (spanRecordBytes r))) ∧
    (∀ bank position : Byte,
      (1 < bank.toNat ∨ position.toNat = 0 ∨ 60 < position.toNat →
        TurnsAway (.spanByPort bank position) s .badField) ∧
      (1 ≤ position.toNat → position.toNat ≤ 60 → ∀ l, bankOfByte bank = some l →
        (s.present l = false → TurnsAway (.spanByPort bank position) s .bankAbsent) ∧
        (s.present l = true → (∀ r ∈ s.spans, ¬(r.bank = l ∧ r.position = position.toNat)) →
          TurnsAway (.spanByPort bank position) s .notFound) ∧
        (s.present l = true → ∀ r ∈ s.spans, r.bank = l → r.position = position.toNat →
          ReadsOut (.spanByPort bank position) s (spanRecordBytes r)))) ∧
    (∀ id : U16,
      ((∀ r ∈ s.spans, r.id ≤ id.toNat) → TurnsAway (.spanNext id) s .notFound) ∧
      (∀ r ∈ s.spans, id.toNat < r.id → (∀ q ∈ s.spans, id.toNat < q.id → r.id ≤ q.id) →
        ReadsOut (.spanNext id) s (spanRecordBytes r)))

/-- R7, R8: a SPAN_PUT that creates a span. -/
def Obligations.SpanPutCreatesADraftSpan : Prop :=
  ∀ (b : SpanFields) (l : Letter) (s : State), s.ready = true → b.identifier.toNat ≠ 0 → CheckedInRange b →
    bankOfByte b.bank = some l → (∀ r ∈ s.spans, r.id ≠ b.identifier.toNat) → s.spans.length < 120 →
    s.present l = true → (∀ r ∈ s.spans, ¬(r.bank = l ∧ r.position = b.position.toNat)) →
    ∃ t r, exec (.spanPut b) s = .next t ∧ Answered s t (putStatus b r) (spanRecordBytes r) ∧
      KeepsBut [.link, .directory] s t ∧ HoldsTheFields b r ∧
      r.state = .draft ∧ r.resume = .draft ∧ r.revision = 0 ∧ r.landmarks = [] ∧ r.lastOutcome = .none_ ∧
      r.lastWindow = 0 ∧ r.lastEnd = none ∧ r.missed = false ∧ r.live = false ∧ r.overflow = false ∧ r.dropped = 0 ∧
      r.mark = true ∧ (∀ q, q ∈ t.spans ↔ (q = r ∨ q ∈ s.spans)) ∧
      (s.directory.length < 120 → ∀ i, Entry.vacated i ∈ t.directory ↔
        (Entry.vacated i ∈ s.directory ∧ i ≠ b.identifier.toNat)) ∧
      (DirectoryLaw s → Entry.vacated b.identifier.toNat ∈ s.directory → ∀ i, Entry.vacated i ∈ t.directory ↔
        (Entry.vacated i ∈ s.directory ∧ i ≠ b.identifier.toNat)) ∧
      (DirectoryLaw s → s.directory.length = 120 → Entry.vacated b.identifier.toNat ∉ s.directory →
        ∃ low, Entry.vacated low ∈ s.directory ∧ (∀ i, Entry.vacated i ∈ s.directory → low ≤ i) ∧
          ∀ i, Entry.vacated i ∈ t.directory ↔ (Entry.vacated i ∈ s.directory ∧ i ≠ low))

/-- R7, R9, R10, R24: a SPAN_PUT that edits a span: the fields, then the flags, then the revision, then the mark. A moved
port of a span whose job is QUEUED calls for a dispatch pass (R174). -/
def Obligations.SpanPutEditsTheSpan : Prop :=
  ∀ (b : SpanFields) (l : Letter) (r : SpanRecord) (s : State), s.ready = true → DirectoryLaw s → r ∈ s.spans →
    r.id = b.identifier.toNat → CheckedInRange b → bankOfByte b.bank = some l → r.state ≠ .retiring →
    ((r.bank = l ∧ r.position = b.position.toNat) ∨
      (s.jobPastQueued r.id = false ∧ s.present l = true ∧
        ∀ q ∈ s.spans, ¬(q.bank = l ∧ q.position = b.position.toNat))) →
    ∃ t r', exec (.spanPut b) s = .next t ∧ Answered s t (putStatus b r') (spanRecordBytes r') ∧
      KeepsBut [.link, .directory, .sched] s t ∧ SpanBecomes r.id (fun _ => r') s t ∧
      HoldsTheFields b r' ∧ r'.state = r.state ∧ r'.resume = r.resume ∧ r'.landmarks = r.landmarks ∧
      r'.lastOutcome = r.lastOutcome ∧ r'.lastWindow = r.lastWindow ∧ r'.lastEnd = r.lastEnd ∧
      r'.missed = (r.missed && !b.clearFlags.getLsbD 0) ∧ r'.live = (r.live && !b.clearFlags.getLsbD 1) ∧
      r'.overflow = (r.overflow && !b.clearFlags.getLsbD 2) ∧
      r'.dropped = (if b.clearFlags.getLsbD 2 = true then 0 else r.dropped) ∧
      r'.revision = (if r'.profile = r.profile ∧ r'.clamped = r.clamped then r.revision
        else (r.revision + 1) % 65536) ∧
      r'.mark = (r.mark || decide ({ r' with mark := r.mark } ≠ r)) ∧
      t.sched = { s.sched with dispatchCalled := s.sched.dispatchCalled ||
        (decide (¬(r'.bank = r.bank ∧ r'.position = r.position)) && s.jobQueued r.id) }

/-- R6: the refusals of SPAN_PUT in their order. -/
def Obligations.SpanPutRefusalsGoInOrder : Prop :=
  ∀ (b : SpanFields) (s : State), s.ready = true → DirectoryLaw s →
    (b.identifier.toNat = 0 → TurnsAway (.spanPut b) s .badField) ∧
    (¬ CheckedInRange b → TurnsAway (.spanPut b) s .badField) ∧
    (b.identifier.toNat ≠ 0 → CheckedInRange b → ∀ l, bankOfByte b.bank = some l →
      (∀ r ∈ s.spans, r.id = b.identifier.toNat →
        (r.state = .retiring → TurnsAway (.spanPut b) s .wrongState) ∧
        (r.state ≠ .retiring → ¬(r.bank = l ∧ r.position = b.position.toNat) →
          (s.jobPastQueued r.id = true → TurnsAway (.spanPut b) s .spanBusy) ∧
          (s.jobPastQueued r.id = false → s.present l = false → TurnsAway (.spanPut b) s .bankAbsent) ∧
          (s.jobPastQueued r.id = false → s.present l = true →
            (∃ q ∈ s.spans, q.bank = l ∧ q.position = b.position.toNat) → TurnsAway (.spanPut b) s .exists_))) ∧
      ((∀ r ∈ s.spans, r.id ≠ b.identifier.toNat) →
        (120 ≤ s.spans.length → TurnsAway (.spanPut b) s .tableFull) ∧
        (s.spans.length < 120 → s.present l = false → TurnsAway (.spanPut b) s .bankAbsent) ∧
        (s.spans.length < 120 → s.present l = true →
          (∃ q ∈ s.spans, q.bank = l ∧ q.position = b.position.toNat) → TurnsAway (.spanPut b) s .exists_)))

/-- R14, R15: SPAN_HOLD and SPAN_RESUME, with their refusals. A hold removes the span's queued SCHEDULED job. R14: where the
hold and the window open of a TIME_ADVANCE come together (the one directly behind the other in the queue, log entry 28), in
both orders the span is HELD, has no job where it had none, and is not newly MISSED; so it is too where the hold is taken
before a CLOCK_SET or WINDOW_SET that opens the window, with which no hold comes together (R185, R187). -/
def Obligations.SpanHoldAndResumeMoveTheSpan : Prop :=
  (∀ (id : U16) (i : Instr) (rest : List Instr) (r : SpanRecord) (s : State), s.ready = true → DirectoryLaw s →
    r ∈ s.spans → r.id = id.toNat → r.state = .active → s.jobPlace r.id = none → OpensTheWindow s i →
    (i = .timeAdvance → ∃ u, EndsHeld r (s.withPending (i :: .spanHold id :: rest)) u) ∧
    ∃ u, EndsHeld r (s.withPending (.spanHold id :: i :: rest)) u) ∧
  ∀ (id : U16) (s : State), s.ready = true → DirectoryLaw s →
    ((∀ r ∈ s.spans, r.id ≠ id.toNat) →
      TurnsAway (.spanHold id) s .notFound ∧ TurnsAway (.spanResume id) s .notFound) ∧
    ∀ r ∈ s.spans, r.id = id.toNat →
      (r.state = .active → ∃ t, exec (.spanHold id) s = .next t ∧ Answered s t .ok (be16 r.id ++ [4]) ∧
        KeepsBut [.link, .directory, .sched] s t ∧
        SpanBecomes r.id (fun q => { q with state := .held, mark := true }) s t ∧
        t.sched = { s.sched with
          classQueues := s.sched.classQueues.map (fun q => q.filter (fun i => i != r.id)) }) ∧
      (r.state ≠ .active → TurnsAway (.spanHold id) s .wrongState) ∧
      (r.state = .held ∨ (r.state = .draft ∧ ∃ m ∈ r.landmarks, m.kind = .farEnd) →
        ∃ t, exec (.spanResume id) s = .next t ∧ Answered s t .ok (be16 r.id ++ [3]) ∧
          KeepsBut [.link, .directory] s t ∧
          SpanBecomes r.id (fun q => { q with state := .active, mark := true }) s t) ∧
      (r.state = .learning ∨ r.state = .active ∨ r.state = .retiring ∨
          (r.state = .draft ∧ ∀ m ∈ r.landmarks, m.kind ≠ .farEnd) → TurnsAway (.spanResume id) s .wrongState)

/-- R16: SPAN_LEARN, with its refusals in order. -/
def Obligations.SpanLearnQueuesALearnJob : Prop :=
  ∀ (id : U16) (s : State), s.ready = true → DirectoryLaw s →
    ((∀ r ∈ s.spans, r.id ≠ id.toNat) → TurnsAway (.spanLearn id) s .notFound) ∧
    ∀ r ∈ s.spans, r.id = id.toNat →
      (r.state = .learning ∨ r.state = .retiring → TurnsAway (.spanLearn id) s .wrongState) ∧
      (r.state ≠ .learning → r.state ≠ .retiring →
        ((s.jobPlace r.id).isSome = true → TurnsAway (.spanLearn id) s .spanBusy) ∧
        (s.jobPlace r.id = none → 8 ≤ s.sched.demandQueue.length → TurnsAway (.spanLearn id) s .queueFull) ∧
        (s.jobPlace r.id = none → s.sched.demandQueue.length < 8 →
          ∃ t, exec (.spanLearn id) s = .next t ∧ Answered s t .ok (be16 r.id ++ [2]) ∧
            KeepsBut [.link, .directory, .sched] s t ∧
            SpanBecomes r.id (fun q => { q with state := .learning, resume := q.state, mark := true }) s t ∧
            t.sched = { s.sched with
              demandQueue := s.sched.demandQueue ++ [{ span := r.id, learn := true }], dispatchCalled := true }))

/-- R18, R19, R20: SPAN_RETIRE by the stage of the span's job. -/
def Obligations.SpanRetireEmptiesTheSpan : Prop :=
  ∀ (id : U16) (s : State), s.ready = true → DirectoryLaw s →
    ((∀ r ∈ s.spans, r.id ≠ id.toNat) → TurnsAway (.spanRetire id) s .notFound) ∧
    ∀ r ∈ s.spans, r.id = id.toNat →
      (r.state = .retiring → ReadsOut (.spanRetire id) s (be16 r.id ++ [5])) ∧
      (r.state ≠ .retiring →
        (s.jobPlace r.id = none →
          ∃ t, exec (.spanRetire id) s = .next t ∧ Answered s t .ok (be16 r.id ++ [0]) ∧
            KeepsBut [.link, .directory, .table] s t ∧ Emptied r.id s t) ∧
        ((∃ c, s.jobPlace r.id = some (.classQueue c)) ∨ (∃ k, s.jobPlace r.id = some (.demandQueue k)) →
          ∃ t, exec (.spanRetire id) s = .next t ∧ Answered s t .ok (be16 r.id ++ [0]) ∧
            KeepsBut [.link, .directory, .table, .sched] s t ∧ Emptied r.id s t ∧
            t.sched.classes = s.sched.classes ∧ t.sched.verifyPlaces = s.sched.verifyPlaces ∧
            ((∃ c, s.jobPlace r.id = some (.classQueue c)) → t.sched.demandQueue = s.sched.demandQueue ∧
              t.sched.classQueues = s.sched.classQueues.map (fun q => q.filter (fun i => i != r.id))) ∧
            ((∃ k, s.jobPlace r.id = some (.demandQueue k)) → t.sched.classQueues = s.sched.classQueues ∧
              t.sched.demandQueue = s.sched.demandQueue.filter (fun d => d.span != r.id))) ∧
        (∀ ch f, s.jobPlace r.id = some (.channel ch f) →
          ∃ t, exec (.spanRetire id) s = .next t ∧ Answered s t .ok (be16 r.id ++ [0]) ∧
            KeepsBut [.link, .directory, .table, .sched, .channels, .banks, .buffers] s t ∧ Emptied r.id s t ∧
            GivesUp ch f (if s.inputs.inhibit then .inhibited else .idle) s t ∧
            t.sched = { s.sched with dispatchCalled := true }) ∧
        (∀ f, s.jobPlace r.id = some (.waiting f) → s.engine.current.isSome = true →
          ∃ t, exec (.spanRetire id) s = .next t ∧ Answered s t .ok (be16 r.id ++ [0]) ∧
            KeepsBut [.link, .directory, .table, .sched, .buffers, .engine] s t ∧ Emptied r.id s t ∧
            t.sched = { s.sched with dispatchCalled := true } ∧
            (∀ i : Fin 4, t.buffers.get i = (s.buffers.get i).filter (fun h => h.holder != .span r.id)) ∧
            t.engine = { s.engine with queue := s.engine.queue.filter (fun g => g.work.id != .span r.id) }) ∧
        (∀ a, s.jobPlace r.id = some (.analysing a) →
          ∃ t, exec (.spanRetire id) s = .next t ∧ Answered s t .ok (be16 r.id ++ [5]) ∧
            KeepsBut [.link, .directory] s t ∧
            SpanBecomes r.id (fun q => { q with state := .retiring, mark := true }) s t))

/-! ### Landmark requests -/

/-- R33, R34: a taken MARKS_APPEND. -/
def Obligations.MarksAppendJoinsTheTail : Prop :=
  ∀ (id : U16) (marks : List Landmark) (r : SpanRecord) (s : State), s.ready = true → DirectoryLaw s → r ∈ s.spans →
    r.id = id.toNat → Carriable marks → (r.state = .draft ∨ r.state = .held) →
    (∀ m ∈ marks, m.distance ≤ 12000000) → InOrder (r.landmarks ++ marks) →
    r.landmarks.length + marks.length ≤ 32 →
    (s.spans.map (fun q => q.landmarks.length)).sum + marks.length ≤ 2048 →
    ∃ t, exec (.marksAppend (marksBody id marks)) s = .next t ∧
      Answered s t (if marks.map storedMark = marks then .ok else .clamped)
        (be16 r.id ++ [byte (r.landmarks.length + marks.length)] ++ be16 ((r.revision + 1) % 65536)) ∧
      KeepsBut [.link, .directory] s t ∧
      SpanBecomes r.id (fun q => { q with
        landmarks := q.landmarks ++ marks.map storedMark, revision := (q.revision + 1) % 65536,
        mark := true }) s t

/-- R32: the refusals of MARKS_APPEND in their order, for every body: one too short, one of a length that does not fit its
count, one with a kind byte that names no kind, and one of entries that a list can hold. -/
def Obligations.MarksAppendRefusalsGoInOrder : Prop :=
  ∀ s : State, s.ready = true → DirectoryLaw s →
    (∀ body : List Byte, body.length < 3 → TurnsAway (.marksAppend body) s .badField) ∧
    (∀ (hi lo count : Byte) (entries : List Byte),
      256 * hi.toNat + lo.toNat = 0 ∨ count.toNat = 0 ∨ 16 < count.toNat ∨ entries.length ≠ 9 * count.toNat →
      TurnsAway (.marksAppend (hi :: lo :: count :: entries)) s .badField) ∧
    (∀ (hi lo count : Byte) (entries : List Byte), 256 * hi.toNat + lo.toNat ≠ 0 → 1 ≤ count.toNat →
      count.toNat ≤ 16 → entries.length = 9 * count.toNat →
      ((∀ r ∈ s.spans, r.id ≠ 256 * hi.toNat + lo.toNat) →
        TurnsAway (.marksAppend (hi :: lo :: count :: entries)) s .notFound) ∧
      ∀ r ∈ s.spans, r.id = 256 * hi.toNat + lo.toNat →
        (r.state = .learning ∨ r.state = .active ∨ r.state = .retiring →
          TurnsAway (.marksAppend (hi :: lo :: count :: entries)) s .wrongState) ∧
        (r.state = .draft ∨ r.state = .held →
          (∃ (k : Nat) (kind : Byte), k < count.toNat ∧ entries[9 * k + 4]? = some kind ∧ 3 < kind.toNat) →
          TurnsAway (.marksAppend (hi :: lo :: count :: entries)) s .badField)) ∧
    (∀ (id : U16) (marks : List Landmark), id.toNat ≠ 0 → Carriable marks →
      ((∀ r ∈ s.spans, r.id ≠ id.toNat) → TurnsAway (.marksAppend (marksBody id marks)) s .notFound) ∧
      ∀ r ∈ s.spans, r.id = id.toNat →
        (r.state = .learning ∨ r.state = .active ∨ r.state = .retiring →
          TurnsAway (.marksAppend (marksBody id marks)) s .wrongState) ∧
        (r.state = .draft ∨ r.state = .held →
          ((∃ m ∈ marks, 12000000 < m.distance) →
            TurnsAway (.marksAppend (marksBody id marks)) s .badField) ∧
          ((∀ m ∈ marks, m.distance ≤ 12000000) → ListLaw r.landmarks →
            (¬ InOrder (r.landmarks ++ marks) →
              TurnsAway (.marksAppend (marksBody id marks)) s .badOrder) ∧
            (InOrder (r.landmarks ++ marks) →
              (32 < r.landmarks.length + marks.length →
                TurnsAway (.marksAppend (marksBody id marks)) s .listFull) ∧
              (r.landmarks.length + marks.length ≤ 32 →
                2048 < (s.spans.map (fun q => q.landmarks.length)).sum + marks.length →
                TurnsAway (.marksAppend (marksBody id marks)) s .poolFull)))))

/-- R36, R37: MARKS_READ and MARKS_CLEAR, with their refusals. -/
def Obligations.MarksReadAndClear : Prop :=
  ∀ (id : U16) (start : Byte) (s : State), s.ready = true → DirectoryLaw s →
    (id.toNat = 0 → TurnsAway (.marksRead id start) s .badField ∧ TurnsAway (.marksClear id) s .badField) ∧
    (32 < start.toNat → TurnsAway (.marksRead id start) s .badField) ∧
    (id.toNat ≠ 0 → (∀ r ∈ s.spans, r.id ≠ id.toNat) →
      (start.toNat ≤ 32 → TurnsAway (.marksRead id start) s .notFound) ∧ TurnsAway (.marksClear id) s .notFound) ∧
    ∀ r ∈ s.spans, r.id = id.toNat →
      (start.toNat ≤ 32 → ReadsOut (.marksRead id start) s
        (be16 r.id ++ [byte r.landmarks.length] ++ be16 r.revision ++
          [start, byte (min 16 (r.landmarks.length - start.toNat))] ++
          ((r.landmarks.drop start.toNat).take 16).flatMap landmarkBytes)) ∧
      (r.state = .learning ∨ r.state = .active ∨ r.state = .retiring → TurnsAway (.marksClear id) s .wrongState) ∧
      (r.state = .draft ∨ r.state = .held →
        (r.landmarks = [] → ReadsOut (.marksClear id) s (be16 r.id ++ [0] ++ be16 r.revision)) ∧
        (r.landmarks ≠ [] →
          ∃ t, exec (.marksClear id) s = .next t ∧
            Answered s t .ok (be16 r.id ++ [0] ++ be16 ((r.revision + 1) % 65536)) ∧
            KeepsBut [.link, .directory] s t ∧
            SpanBecomes r.id (fun q => { q with
              landmarks := [], revision := (q.revision + 1) % 65536, mark := true }) s t))

/-! ### Test requests -/

/-- R171: TEST_NOW, with its refusals in order. -/
def Obligations.TestNowQueuesADemandJob : Prop :=
  ∀ (id : U16) (s : State), s.ready = true → DirectoryLaw s →
    (id.toNat = 0 → TurnsAway (.testNow id) s .badField) ∧
    (id.toNat ≠ 0 → (∀ r ∈ s.spans, r.id ≠ id.toNat) → TurnsAway (.testNow id) s .notFound) ∧
    ∀ r ∈ s.spans, r.id = id.toNat →
      (r.state = .learning ∨ r.state = .retiring → TurnsAway (.testNow id) s .wrongState) ∧
      (r.state ≠ .learning → r.state ≠ .retiring →
        ((s.jobPlace r.id).isSome = true → TurnsAway (.testNow id) s .spanBusy) ∧
        (s.jobPlace r.id = none → 8 ≤ s.sched.demandQueue.length → TurnsAway (.testNow id) s .queueFull) ∧
        (s.jobPlace r.id = none → s.sched.demandQueue.length < 8 →
          ∃ t, exec (.testNow id) s = .next t ∧ Answered s t .ok [byte (s.sched.demandQueue.length + 1)] ∧
            KeepsBut [.link, .sched] s t ∧
            t.sched = { s.sched with
              demandQueue := s.sched.demandQueue ++ [{ span := r.id, learn := false }], dispatchCalled := true }))

/-- R172: TEST_CANCEL, with its refusals, by the stage of the span's DEMAND or LEARN job. -/
def Obligations.TestCancelEndsTheJob : Prop :=
  ∀ (id : U16) (s : State), s.ready = true → DirectoryLaw s →
    (id.toNat = 0 → TurnsAway (.testCancel id) s .badField) ∧
    (id.toNat ≠ 0 → (∀ r ∈ s.spans, r.id ≠ id.toNat) → TurnsAway (.testCancel id) s .notFound) ∧
    ∀ r ∈ s.spans, r.id = id.toNat →
      (r.state = .retiring → TurnsAway (.testCancel id) s .wrongState) ∧
      (r.state ≠ .retiring → s.jobPlace r.id = none → TurnsAway (.testCancel id) s .wrongState) ∧
      (r.state ≠ .retiring → ∀ p, s.jobPlace r.id = some p →
        (p.isScheduled = true → TurnsAway (.testCancel id) s .wrongState) ∧
        (p.isScheduled = false →
          (∀ k, p = .demandQueue k →
            ∃ t, exec (.testCancel id) s = .next t ∧ Answered s t .ok [] ∧ KeepsBut [.link, .directory, .sched] s t ∧
              SpanBecomes r.id (SpanRecord.ended (if k then .learn else .demand) .cancelled s.timeBase.windowNumber) s t ∧
              t.sched = { s.sched with demandQueue := s.sched.demandQueue.filter (fun d => d.span != r.id) }) ∧
          (∀ ch f kind rev, p = .channel ch f → f.work = .test kind r.id rev →
            ∃ t, exec (.testCancel id) s = .next t ∧ Answered s t .ok [] ∧
              KeepsBut [.link, .directory, .sched, .channels, .banks, .buffers] s t ∧
              SpanBecomes r.id (SpanRecord.ended kind .cancelled s.timeBase.windowNumber) s t ∧
              GivesUp ch f (if s.inputs.inhibit then .inhibited else .idle) s t ∧
              t.sched = { s.sched with dispatchCalled := true }) ∧
          (∀ f kind rev, p = .waiting f → f.work = .test kind r.id rev → s.engine.current.isSome = true →
            ∃ t, exec (.testCancel id) s = .next t ∧ Answered s t .ok [] ∧
              KeepsBut [.link, .directory, .sched, .buffers, .engine] s t ∧
              SpanBecomes r.id (SpanRecord.ended kind .cancelled s.timeBase.windowNumber) s t ∧
              t.sched = { s.sched with dispatchCalled := true } ∧
              (∀ i : Fin 4, t.buffers.get i = (s.buffers.get i).filter (fun h => h.holder != .span r.id)) ∧
              t.engine = { s.engine with queue := s.engine.queue.filter (fun g => g.work.id != .span r.id) }) ∧
          (∀ a kind rev, p = .analysing a → a.flight.work = .test kind r.id rev →
            (a.flight.cancelled = true → ReadsOut (.testCancel id) s []) ∧
            (a.flight.cancelled = false →
              ∃ t, exec (.testCancel id) s = .next t ∧ Answered s t .ok [] ∧
                KeepsBut [.link, .directory, .engine] s t ∧
                SpanBecomes r.id (SpanRecord.ended kind .cancelled s.timeBase.windowNumber) s t ∧
                t.engine = { s.engine with current := some { a with flight := { a.flight with cancelled := true } } }))))

/-! ### Condition requests -/

/-- R154, R155: COND_GET and COND_NEXT answer with the record of the condition that they name, and change nothing. -/
def Obligations.CondReadsAnswerTheRecord : Prop :=
  ∀ s : State, s.ready = true → TableLaw s →
    (∀ tag : U16,
      (tag.toNat = 0 → TurnsAway (.condGet tag) s .badField) ∧
      (tag.toNat ≠ 0 → (∀ c ∈ s.table.conditions, c.tag ≠ tag.toNat) → TurnsAway (.condGet tag) s .notFound) ∧
      (∀ c ∈ s.table.conditions, c.tag = tag.toNat →
        ReadsOut (.condGet tag) s (conditionBytes c ++ [byte (s.table.severity.of c.kind)]))) ∧
    (∀ id tag : U16,
      (id.toNat = 0 → TurnsAway (.condNext id tag) s .badField) ∧
      (id.toNat ≠ 0 → (∀ c ∈ s.table.conditions, c.span = id.toNat → c.tag ≤ tag.toNat) →
        TurnsAway (.condNext id tag) s .notFound) ∧
      (id.toNat ≠ 0 → ∀ c ∈ s.table.conditions, c.span = id.toNat → tag.toNat < c.tag →
        (∀ d ∈ s.table.conditions, d.span = id.toNat → tag.toNat < d.tag → c.tag ≤ d.tag) →
        ReadsOut (.condNext id tag) s (conditionBytes c ++ [byte (s.table.severity.of c.kind)])))

/-- R156, R157: COND_ACK sets ACKNOWLEDGED and nothing else; COND_RETIRE frees the condition whatever its state; both with
their refusals. -/
def Obligations.CondAckAndRetire : Prop :=
  ∀ (tag : U16) (s : State), s.ready = true → TableLaw s →
    (tag.toNat = 0 → TurnsAway (.condAck tag) s .badField ∧ TurnsAway (.condRetire tag) s .badField) ∧
    (tag.toNat ≠ 0 → (∀ c ∈ s.table.conditions, c.tag ≠ tag.toNat) →
      TurnsAway (.condAck tag) s .notFound ∧ TurnsAway (.condRetire tag) s .notFound) ∧
    ∀ c ∈ s.table.conditions, c.tag = tag.toNat →
      (c.state = .retired → TurnsAway (.condAck tag) s .wrongState) ∧
      (c.state ≠ .retired →
        ∃ t, exec (.condAck tag) s = .next t ∧ Answered s t .ok [] ∧ KeepsBut [.link, .table] s t ∧
          t.table = { s.table with
            conditions := s.table.conditions.map (fun d => if d.tag = c.tag then { d with acknowledged := true } else d) }) ∧
      ∃ t, exec (.condRetire tag) s = .next t ∧ Answered s t .ok [] ∧ KeepsBut [.link, .table] s t ∧
        t.table = { s.table with conditions := s.table.conditions.filter (fun d => d.tag != c.tag) }

/-! ### Settings -/

/-- R143, R73, R173: SEVERITY_SET, GUARD_SET and CLASS_SET store what they carry, replaced by the bound where it is out of
range, and answer with it as stored; CLASS_SET refuses a class or a pre-emptible byte that names nothing. -/
def Obligations.SeverityGuardAndClassSettings : Prop :=
  ∀ s : State, s.ready = true →
    (∀ b : SeverityFields,
      ∃ t, exec (.severitySet b) s = .next t ∧
        Answered s t
          (if b.forBreak.toNat ≤ 3 ∧ b.forBend.toNat ≤ 3 ∧ b.forLoss.toNat ≤ 3 ∧ b.forDrift.toNat ≤ 3 ∧
            b.forReflection.toNat ≤ 3 then .ok else .clamped) (severityBytes t.table.severity) ∧
        KeepsBut [.link, .table] s t ∧
        t.table = { s.table with severity :=
          { forBreak := min 3 b.forBreak.toNat, forBend := min 3 b.forBend.toNat, forLoss := min 3 b.forLoss.toNat,
            forDrift := min 3 b.forDrift.toNat, forReflection := min 3 b.forReflection.toNat } }) ∧
    (∀ overload live : U16,
      ∃ t, exec (.guardSet overload live) s = .next t ∧
        Answered s t
          (if t.thresholds = { overload := overload.toNat, live := live.toNat } then .ok else .clamped)
          (be16 t.thresholds.overload ++ be16 t.thresholds.live) ∧
        KeepsBut [.link, .thresholds] s t ∧ t.thresholds.overload = max 1000 (min 24082 overload.toNat) ∧
        t.thresholds.live = min (max 1000 (min 24082 live.toNat)) t.thresholds.overload) ∧
    ∀ cls weight preemptible : Byte,
      (3 < cls.toNat ∨ 1 < preemptible.toNat → TurnsAway (.classSet cls weight preemptible) s .badField) ∧
      (∀ c : Fin 4, c.val = cls.toNat → preemptible.toNat ≤ 1 →
        ∃ t k, exec (.classSet cls weight preemptible) s = .next t ∧
          Answered s t (if weight.toNat ≤ 15 then .ok else .clamped) [cls, byte (min 15 weight.toNat), preemptible,
            byte (min 15 weight.toNat)] ∧
          KeepsBut [.link, .sched] s t ∧
          k = ({ weight := min 15 weight.toNat, preemptible := preemptible == 1, credit := min 15 weight.toNat }
            : ClassSetting) ∧
          t.sched = { s.sched with classes := s.sched.classes.set c k, dispatchCalled := true })

/-- R54, R55, R56, R57: PROFILE_SET settles and stores the seven fields, PROFILE_GET answers with them, both with their
refusals. -/
def Obligations.ProfileSetAndGet : Prop :=
  ∀ s : State, s.ready = true →
    (∀ number : Byte, 7 < number.toNat → TurnsAway (.profileGet number) s .badField) ∧
    (∀ (number : Byte) (n : Fin 8), n.val = number.toNat →
      ReadsOut (.profileGet number) s (profileBytes n.val (s.profiles.get n))) ∧
    (∀ b : ProfileFields,
      7 < b.number.toNat ∨ 5 < b.pulseCode.toNat ∨ b.spacing.toNat ∉ [1, 2, 4, 8, 16, 32, 64] →
      TurnsAway (.profileSet b) s .badField) ∧
    ∀ (b : ProfileFields) (n : Fin 8), n.val = b.number.toNat → b.pulseCode.toNat ≤ 5 →
      b.spacing.toNat ∈ [1, 2, 4, 8, 16, 32, 64] →
      ∃ t p, exec (.profileSet b) s = .next t ∧
        p = ({ pulseCode := b.pulseCode.toNat, spacing := b.spacing.toNat,
               pointCount := max 512 (min 16384 (b.pointCount.toNat / 256 * 256)),
               shotExponent := max 6 (min 16 b.shotExponent.toNat), window := max 4 (min 64 b.window.toNat),
               reflectiveThreshold := max 200 (min 6000 b.reflectiveThreshold.toNat),
               endMargin := max 300 (min 3000 b.endMargin.toNat) } : Profile) ∧
        Answered s t (if p = carriedProfile b then .ok else .clamped) (profileBytes n.val p) ∧
        KeepsBut [.link, .profiles] s t ∧ t.profiles = s.profiles.set n p

/-- R74, R75: COIL_SET, with its refusals. A length of 0 removes the queued verify job of the bank's channel. -/
def Obligations.CoilSetStoresTheCoil : Prop :=
  ∀ (bank : Byte) (length : U32) (groupIndex : U16) (s : State), s.ready = true →
    (1 < bank.toNat → TurnsAway (.coilSet bank length groupIndex) s .badField) ∧
    ∀ l, bankOfByte bank = some l →
      (s.present l = false → TurnsAway (.coilSet bank length groupIndex) s .bankAbsent) ∧
      (s.present l = true →
        ∃ t c, exec (.coilSet bank length groupIndex) s = .next t ∧
          c = ({ length := min 12000000 length.toNat, groupIndex := max 14000 (min 15000 groupIndex.toNat) } : Coil) ∧
          Answered s t (if length.toNat ≤ 12000000 ∧ 14000 ≤ groupIndex.toNat ∧ groupIndex.toNat ≤ 15000 then .ok
            else .clamped) ([bank] ++ be32 c.length ++ be16 c.groupIndex) ∧
          KeepsBut [.link, .banks, .sched] s t ∧
          t.banks = s.banks.set l { s.banks.get l with
            coil := c, mark := (s.banks.get l).mark || decide (c ≠ (s.banks.get l).coil) } ∧
          t.sched = { s.sched with verifyPlaces :=
            if c.length = 0 then s.sched.verifyPlaces.set l false else s.sched.verifyPlaces })

/-- R68: BANK_RESTORE, with its refusals. An out-of-service bank is in service again and driven to position 0: in 30 ms
where it must move, and at once where its commanded position is 0. -/
def Obligations.BankRestoreDrivesTheBankHome : Prop :=
  ∀ (bank : Byte) (sense : Sense) (s : State), s.ready = true →
    (1 < bank.toNat → TurnsAway (.bankRestore bank sense) s .badField) ∧
    ∀ l, bankOfByte bank = some l →
      (s.present l = false → TurnsAway (.bankRestore bank sense) s .bankAbsent) ∧
      (s.present l = true → (s.banks.get l).service = .inService →
        TurnsAway (.bankRestore bank sense) s .wrongState) ∧
      (s.present l = true → (s.banks.get l).service = .outOfService → (s.banks.get l).holder = none →
        ∃ t b, exec (.bankRestore bank sense) s = .next t ∧ Answered s t .ok [] ∧
          KeepsBut [.link, .banks, .sched] s t ∧ t.sched = { s.sched with dispatchCalled := true } ∧
          t.banks = s.banks.set l b ∧ b.mark = true ∧ b.coil = (s.banks.get l).coil ∧ b.holder = none ∧
          b.commanded = 0 ∧
          ((s.banks.get l).commanded ≠ 0 →
            b.service = .inService ∧ b.motion = .moving (s.now + 30000000) ∧ b.sensed = (s.banks.get l).sensed) ∧
          ((s.banks.get l).commanded = 0 → b.motion = .still ∧ b.sensed = sense.map Fin.val ∧
            (b.service = .inService ↔ sense = some 0)))

/-! ### The window -/

/-- R160, R161, R162, R163: CLOCK_SET, WINDOW_SET and the one-second advance set the time base and test the window. -/
def Obligations.TimeSetsAndAdvancesTestTheWindow : Prop :=
  (∀ (v : U32) (s : State), s.ready = true →
    (86399 < v.toNat → TurnsAway (.clockSet v) s .badField) ∧
    (v.toNat ≤ 86399 →
      ∃ t, exec (.clockSet v) s = .next t ∧ Answered s t .ok (timeBaseBytes t.timeBase) ∧
        WindowTested v.toNat s.timeBase.openTime s.timeBase.closeTime (s.now + 1000000000) s.now s t)) ∧
  (∀ (o c : U32) (s : State), s.ready = true →
    (86399 < o.toNat ∨ 86399 < c.toNat → TurnsAway (.windowSet o c) s .badField) ∧
    (o.toNat ≤ 86399 → c.toNat ≤ 86399 →
      ∃ t, exec (.windowSet o c) s = .next t ∧ Answered s t .ok (timeBaseBytes t.timeBase) ∧
        WindowTested s.timeBase.timeOfDay o.toNat c.toNat s.timeBase.nextAdvance s.now s t)) ∧
  ∀ s : State,
    ∃ t, exec .timeAdvance s = .next t ∧ t.link = s.link ∧
      WindowTested ((s.timeBase.timeOfDay + 1) % 86400) s.timeBase.openTime s.timeBase.closeTime
        (s.timeBase.nextAdvance + 1000000000) (max s.now s.timeBase.nextAdvance) s t

/-- R164, R165, R173, R75: what a window open queues, and the dispatch pass that is of the same act, for the open that a
CLOCK_SET, a WINDOW_SET or the one-second advance brings. What the senses report in the pass is free (log entry 27). The
job of a span held together with the open of a TIME_ADVANCE stays QUEUED for the hold to remove (R14); which hold comes
together with it is log entry 28. No hold comes together with a CLOCK_SET or WINDOW_SET (R185, R187). That TIME_ADVANCE brings the clock up to its due time is log entry 1. -/
def Obligations.WindowOpenQueuesTheDueSpans : Prop :=
  (∀ (s : State) (id : Nat), id ∈ s.heldTogether ↔ HeldTogether s id) ∧
  (∀ (v : U32) (s : State), s.ready = true → v.toNat ≤ 86399 → s.timeBase.windowOpen = false →
    Inside v.toNat s.timeBase.openTime s.timeBase.closeTime →
    ∃ t, exec (.clockSet v) s = .next t ∧ OpensAndPasses [] [.link, .timeBase, .sched] s.now s t) ∧
  (∀ (o c : U32) (s : State), s.ready = true → o.toNat ≤ 86399 → c.toNat ≤ 86399 →
    s.timeBase.windowOpen = false → Inside s.timeBase.timeOfDay o.toNat c.toNat →
    ∃ t, exec (.windowSet o c) s = .next t ∧ OpensAndPasses [] [.link, .timeBase, .sched] s.now s t) ∧
  ∀ s : State, s.timeBase.windowOpen = false →
    Inside ((s.timeBase.timeOfDay + 1) % 86400) s.timeBase.openTime s.timeBase.closeTime →
    ∃ t, exec .timeAdvance s = .next t ∧
      OpensAndPasses s.heldTogether [.timeBase, .sched, .now] (max s.now s.timeBase.nextAdvance) s t

/-- R166, R22, R88, R89, R87: what a window close discards, drops and cuts, for the close that a CLOCK_SET, a WINDOW_SET or
the one-second advance brings. A cut that has all its shots is complete (log entry 13). That TIME_ADVANCE brings the clock
up to its due time is log entry 1. -/
def Obligations.WindowCloseDiscardsDropsAndCuts : Prop :=
  (∀ (v : U32) (s : State), s.ready = true → v.toNat ≤ 86399 → s.timeBase.windowOpen = true →
    ¬ Inside v.toNat s.timeBase.openTime s.timeBase.closeTime →
    ∃ t, exec (.clockSet v) s = .next t ∧ WindowCloses s t ∧
      KeepsBut [.link, .timeBase, .directory, .buffers, .sched, .banks, .channels, .engine, .draws] s t) ∧
  (∀ (o c : U32) (s : State), s.ready = true → o.toNat ≤ 86399 → c.toNat ≤ 86399 → s.timeBase.windowOpen = true →
    ¬ Inside s.timeBase.timeOfDay o.toNat c.toNat →
    ∃ t, exec (.windowSet o c) s = .next t ∧ WindowCloses s t ∧
      KeepsBut [.link, .timeBase, .directory, .buffers, .sched, .banks, .channels, .engine, .draws] s t) ∧
  ∀ s : State, s.timeBase.windowOpen = true →
    ¬ Inside ((s.timeBase.timeOfDay + 1) % 86400) s.timeBase.openTime s.timeBase.closeTime →
    ∃ t, exec .timeAdvance s = .next t ∧ WindowCloses s t ∧
      KeepsBut [.timeBase, .directory, .buffers, .sched, .banks, .channels, .engine, .draws, .now] s t

/-! ### INHIBIT -/

/-- R92, R93, R94, R90: INHIBIT asserted and released. At an assertion each job at a channel gives up its buffers and its
bank; a DEMAND or LEARN job goes to the head of the demand queue, a SCHEDULED job to the head of its span's class queue
while a window is open, and its span is MISSED while none is; a VERIFY job is dropped. `first` and `second` are the channels
in the order in which their jobs go: where both go to the head of one queue either may be first (R93). -/
def Obligations.InhibitStopsAndFreesTheChannels : Prop :=
  (∀ s : State, ∃ (t : State) (first second : Letter), exec .inhibitAsserted s = .next t ∧ first ≠ second ∧
    KeepsBut [.inputs, .channels, .banks, .buffers, .sched, .directory, .draws] s t ∧
    t.inputs = { s.inputs with inhibit := true } ∧
    (∀ ch : Letter, t.channels.get ch = { s.channels.get ch with
      activity := .inhibited,
      accumulator := if (s.channels.get ch).activity.isBusy then [] else (s.channels.get ch).accumulator,
      mark := (s.channels.get ch).mark || !(s.channels.get ch).activity.isInhibited }) ∧
    (∀ l ch : Letter, (s.banks.get l).holder = some ch → (s.channels.get ch).activity.isBusy = true →
      t.banks.get l = { s.banks.get l with holder := none }) ∧
    (∀ l : Letter, (∀ ch, (s.banks.get l).holder = some ch → (s.channels.get ch).activity.isBusy = false) →
      t.banks.get l = s.banks.get l) ∧
    (∀ (i : Fin 4) (h : Holding) (ch : Letter) (f : Flight), s.buffers.get i = some h →
      (s.channels.get ch).activity.flight? = some f → h.holder = f.work.id → t.buffers.get i = none) ∧
    (∀ i : Fin 4, (∀ h ch f, s.buffers.get i = some h → (s.channels.get ch).activity.flight? = some f →
      h.holder ≠ f.work.id) → t.buffers.get i = s.buffers.get i) ∧
    t.sched.demandQueue = s.demandAt second ++ s.demandAt first ++ s.sched.demandQueue ∧
    (∀ k : Fin 4, t.sched.classQueues.get k =
      if s.timeBase.windowOpen then
        s.scheduledOfClass second k ++ s.scheduledOfClass first k ++ s.sched.classQueues.get k
      else s.sched.classQueues.get k) ∧
    t.sched.verifyPlaces = s.sched.verifyPlaces ∧ t.sched.classes = s.sched.classes ∧
    t.sched.dispatchCalled = (s.sched.dispatchCalled || s.channels.a.activity.isBusy || s.channels.b.activity.isBusy) ∧
    t.spans = s.spans.map (fun r =>
      if s.timeBase.windowOpen = false ∧ r.id ∈ s.scheduledAt .A ++ s.scheduledAt .B then
        { r with missed := true, mark := true } else r) ∧
    t.directory.map Entry.id = s.directory.map Entry.id ∧
    ∀ i, Entry.vacated i ∈ t.directory ↔ Entry.vacated i ∈ s.directory) ∧
  ∀ s : State, s.inputs.inhibit = true →
    ∃ t, exec .inhibitReleased s = .next t ∧ KeepsBut [.inputs, .channels, .sched] s t ∧
      t.inputs = { s.inputs with inhibit := false } ∧ t.sched = { s.sched with dispatchCalled := true } ∧
      ∀ ch : Letter, t.channels.get ch =
        if (s.channels.get ch).activity.isInhibited then { s.channels.get ch with activity := .idle, mark := true }
        else s.channels.get ch

/-! ### A test under way -/

/-- R64, R65, R66: a settle completion of a moving bank, with and without a holder, matching and not. -/
def Obligations.SettleCompletionGuardsOrFaults : Prop :=
  ∀ (l : Letter) (sense : Sense) (due : Nat) (s : State), (s.banks.get l).motion = .moving due →
    ((s.banks.get l).holder = none →
      ∃ t, exec (.settleCompletion l sense) s = .next t ∧ KeepsBut [.now, .banks] s t ∧ t.now = max s.now due ∧
        (sense.map Fin.val = some (s.banks.get l).commanded →
          t.banks = s.banks.set l { s.banks.get l with sensed := sense.map Fin.val, motion := .still }) ∧
        (sense.map Fin.val ≠ some (s.banks.get l).commanded →
          t.banks = s.banks.set l { s.banks.get l with
            sensed := sense.map Fin.val, motion := .still, service := .outOfService, mark := true })) ∧
    ∀ ch stage f, (s.banks.get l).holder = some ch → (s.channels.get ch).activity = .busy stage f →
      (sense.map Fin.val = some (s.banks.get l).commanded →
        ∃ t, exec (.settleCompletion l sense) s = .next t ∧ KeepsBut [.now, .banks, .channels] s t ∧
          t.now = max s.now due ∧
          t.banks = s.banks.set l { s.banks.get l with sensed := sense.map Fin.val, motion := .still } ∧
          t.channels = s.channels.set ch { s.channels.get ch with
            activity := .busy (.guard (t.now + 2000000)) f }) ∧
      (sense.map Fin.val ≠ some (s.banks.get l).commanded → BankLaw s →
        ∃ t, exec (.settleCompletion l sense) s = .next t ∧
          KeepsBut [.now, .banks, .channels, .buffers, .sched, .directory] s t ∧ t.now = max s.now due ∧
          t.banks = s.banks.set l { s.banks.get l with
            sensed := sense.map Fin.val, motion := .still, service := .outOfService, holder := none, mark := true } ∧
          t.channels = s.channels.set ch { s.channels.get ch with activity := .idle, accumulator := [] } ∧
          (∀ i : Fin 4, t.buffers.get i = (s.buffers.get i).filter (fun h => h.holder != f.work.id)) ∧
          t.sched = { s.sched with dispatchCalled := true } ∧ Ended f.work .bankFault s t)

/-- R69, R70, R71, R84, R23: a guard completion ends the job with LIVE_OVERLOAD, or starts its 1625 nm acquisition, in the
live band with the LIVE flags set and the 1310 nm step dropped. -/
def Obligations.GuardCompletionEndsOrFires : Prop :=
  ∀ (ch : Letter) (due sum : Nat) (f : Flight) (s : State), (s.channels.get ch).activity = .busy (.guard due) f →
    (s.thresholds.overload ≤ levelOf (sum / 800000) →
      ∃ t, exec (.guardCompletion ch sum) s = .next t ∧
        KeepsBut [.now, .directory, .sched, .channels, .banks, .buffers] s t ∧ t.now = max s.now due ∧
        GivesUp ch f .idle s t ∧ Ended f.work .liveOverload s t ∧
        t.sched = { s.sched with dispatchCalled := true }) ∧
    (levelOf (sum / 800000) < s.thresholds.overload →
      ∃ t, exec (.guardCompletion ch sum) s = .next t ∧
        KeepsBut [.now, .directory, .sched, .channels, .buffers] s t ∧ t.now = max s.now due ∧
        (s.thresholds.live ≤ levelOf (sum / 800000) →
          t.channels = s.channels.set ch { s.channels.get ch with
            activity := .busy (.firing1625 t.now) { f with shotsDone := 0, live := true, plan := .single },
            accumulator := List.replicate f.snapshot.profile.pointCount 0 } ∧
          (∀ kind id rev, f.work = .test kind id rev →
            SpanBecomes id (fun q => { q with live := true, mark := true }) s t) ∧
          (∀ own coil, f.work = .verify own coil → t.directory = s.directory) ∧
          t.sched = { s.sched with dispatchCalled := s.sched.dispatchCalled || f.plan == .dual } ∧
          (∀ i : Fin 4, t.buffers.get i = if f.plan = .dual then
            (s.buffers.get i).filter (fun h => !(h.holder == f.work.id && h.role == .nm1310)) else s.buffers.get i)) ∧
        (levelOf (sum / 800000) < s.thresholds.live →
          t.channels = s.channels.set ch { s.channels.get ch with
            activity := .busy (.firing1625 t.now) { f with shotsDone := 0 },
            accumulator := List.replicate f.snapshot.profile.pointCount 0 } ∧
          (∀ kind id rev, f.work = .test kind id rev →
            SpanBecomes id (fun q => { q with live := false, mark := q.mark || q.live }) s t) ∧
          (∀ own coil, f.work = .verify own coil → t.directory = s.directory) ∧
          t.buffers = s.buffers ∧ t.sched = s.sched))

/-- R85: a shot that is accumulated adds the samples of each point's bins to its sum and counts one more shot done. The
clock comes up to the end of the shot's last bin (log entry 1). -/
def Obligations.ShotsAddToTheAccumulator : Prop :=
  ∀ (ch : Letter) (since : Nat) (stage : Stage) (f : Flight) (samples : List U16) (s : State),
    (s.channels.get ch).activity = .busy stage f → (stage = .firing1625 since ∨ stage = .firing1310 since) →
    f.snapshot.rangeBins = f.snapshot.profile.pointCount * f.snapshot.profile.spacing →
    samples.length = f.snapshot.rangeBins → f.shotsDone < f.snapshot.shots →
    (s.channels.get ch).accumulator.length = f.snapshot.profile.pointCount →
    ∃ t sums, exec (.shotAccumulated ch samples) s = .next t ∧ KeepsBut [.now, .channels] s t ∧
      t.now = max s.now (since + (f.shotsDone + 1) * f.snapshot.shotPeriod - 2000) ∧
      t.channels = s.channels.set ch { s.channels.get ch with
        activity := .busy stage { f with shotsDone := f.shotsDone + 1 }, accumulator := sums } ∧
      sums.length = f.snapshot.profile.pointCount ∧
      ∀ i x, (s.channels.get ch).accumulator[i]? = some x →
        sums[i]? = some (x + (((samples.drop (i * f.snapshot.profile.spacing)).take f.snapshot.profile.spacing).map
          BitVec.toNat).sum)

/-- R86, R87: an acquisition completion writes the level trace into the job's buffer of its wavelength, and starts the
1310 nm acquisition of a DUAL job or hands the job on, to be taken in the same act by an IDLE engine (R101). -/
def Obligations.AcquisitionCompletionWritesTheTrace : Prop :=
  ∀ (ch : Letter) (since : Nat) (stage : Stage) (role : Role) (f : Flight) (s : State),
    (s.channels.get ch).activity = .busy stage f →
    ((stage = .firing1625 since ∧ role = .nm1625) ∨ (stage = .firing1310 since ∧ role = .nm1310)) →
    f.snapshot.shots ≤ f.shotsDone →
    ∃ t, exec (.acquisitionCompletion ch) s = .next t ∧
      KeepsBut [.now, .channels, .banks, .buffers, .sched, .engine] s t ∧
      t.now = max s.now (since + f.snapshot.shots * f.snapshot.shotPeriod) ∧
      (∀ i : Fin 4, t.buffers.get i = (s.buffers.get i).map (fun h =>
        if h.holder = f.work.id ∧ h.role = role then
          { h with
            trace := some (Trace.mk
              ((s.channels.get ch).accumulator.map
                (fun sum => levelOf (sum / (f.shotsDone * f.snapshot.profile.spacing))))
              f.shotsDone f.snapshot.profile.pointCount) }
        else h)) ∧
      (role = .nm1625 → f.plan = .dual →
        t.channels = s.channels.set ch { s.channels.get ch with
          activity := .busy (.firing1310 t.now) { f with shotsDone := 0 },
          accumulator := List.replicate f.snapshot.profile.pointCount 0 } ∧
        t.banks = s.banks ∧ t.sched = s.sched ∧ t.engine = s.engine) ∧
      (role = .nm1310 ∨ f.plan = .single →
        HandsOn ch { f with recorded := some { trim := (s.channels.get ch).trim,
                                               degraded := (s.channels.get ch).degraded } } s t)

/-- The model's choices (log entries 2 and 6): with no command waiting a step is one nanosecond of idling, and an event that
the part is not waiting for leaves the state as it is. -/
def Obligations.IdleStepsAndUnawaitedEvents : Prop :=
  (∀ s : State, step (s.withPending []) = .next { s.withPending [] with now := s.now + 1 }) ∧
  (∀ (l : Letter) (sense : Sense) (s : State), (s.banks.get l).motion = .still →
    exec (.settleCompletion l sense) s = .next s) ∧
  (∀ (ch : Letter) (sum : Nat) (s : State), (∀ due f, (s.channels.get ch).activity ≠ .busy (.guard due) f) →
    exec (.guardCompletion ch sum) s = .next s) ∧
  (∀ (ch : Letter) (samples : List U16) (s : State),
    (∀ since f, (s.channels.get ch).activity ≠ .busy (.firing1625 since) f ∧
      (s.channels.get ch).activity ≠ .busy (.firing1310 since) f) →
    exec (.shotAccumulated ch samples) s = .next s ∧ exec (.acquisitionCompletion ch) s = .next s) ∧
  (∀ s : State, s.inputs.inhibit = false → exec .inhibitReleased s = .next s) ∧
  (∀ s : State, s.engine.current = none → exec .analysisCompletion s = .next s) ∧
  ∀ s : State, s.engine.current.isSome = true ∨ s.engine.queue = [] → exec .analysisTake s = .next s

/-! ### The dispatch pass -/

/-- R174, R176, R180: a pass in which no idle channel has a job chosen for it, and in which no window is open, no DEMAND job
is queued, or no SCHEDULED job of a pre-emptible class is at a channel, changes nothing but the call that it answers and
the model's clock (log entry 4); and a pass leaves every busy channel as it is, unless a window is open and its job is
SCHEDULED of a pre-emptible class. -/
def Obligations.DispatchPassLeavesBusyChannels : Prop :=
  (∀ (a b : Sense) (s : State),
    (∀ ch, (s.channels.get ch).activity = .idle → (s.choose ch).job = none) →
    (s.timeBase.windowOpen = false ∨ (∀ d ∈ s.sched.demandQueue, d.learn = true) ∨
      ∀ ch f c id rev, (s.channels.get ch).activity.flight? = some f → f.work = .test (.scheduled c) id rev →
        (s.sched.classes.get c).preemptible = false) →
    exec (.dispatchPass a b) s =
      .next { s with sched := { s.sched with dispatchCalled := false }, now := s.now + 1 }) ∧
  ∀ (a b : Sense) (s : State) (ch : Letter) (stage : Stage) (f : Flight),
    (s.channels.get ch).activity = .busy stage f →
    (s.timeBase.windowOpen = false ∨ ∀ c id rev, f.work = .test (.scheduled c) id rev →
      (s.sched.classes.get c).preemptible = false) →
    ∃ t, exec (.dispatchPass a b) s = .next t ∧ t.channels.get ch = s.channels.get ch ∧
      KeepsBut [.buffers, .sched, .banks, .channels, .directory, .now] s t

/-- R178, R82, R63, R47, R48, R45, R50, R52, R81: the job chosen for an idle channel is dispatched to it: channel A, or
channel B where channel A is not idle. It takes its buffers and its bank; where the bank is MOVING or elsewhere it waits for
the settle completion, and where the bank is STILL at the position the settle completion occurs at the take, and the job is
guarded or ends with BANK_FAULT by what the position sense reports (R64, R65). R174, R180, R181, for every state: the pass
considers channel A, then channel B in the state that A's dispatch left, and then, while a window is open, pre-emption for
each DEMAND job that still waits; the clock moves by 1 ns (log entry 4). -/
def Obligations.DispatchTakesTheChosenJob : Prop :=
  (∀ (a b : Sense) (ch other : Letter) (j : Job) (l : Letter) (position : Nat) (s : State), ch ≠ other →
    (s.channels.get ch).activity = .idle → (ch = .A ∨ (s.channels.get other).activity ≠ .idle) →
    (s.choose ch).job = some j → s.portOf j = some (l, position) →
    (s.timeBase.windowOpen = false ∨ ∀ d ∈ s.sched.demandQueue, d.learn = true) →
    ((s.banks.get l).motion ≠ .still ∨ (s.banks.get l).commanded ≠ position →
      ∃ (t : State) (f : Flight) (i k : Fin 4), exec (.dispatchPass a b) s = .next t ∧
        KeepsBut [.buffers, .sched, .banks, .channels, .directory, .now] s t ∧
        t.channels.get ch = { s.channels.get ch with activity := .busy .switching f } ∧ StartsAs s ch j f ∧
        TakesBuffers s t j.id f.plan i k ∧ LeavesItsQueue j t ∧
        (t.banks.get l).holder = some ch ∧ (t.banks.get l).commanded = position ∧
        ((s.banks.get l).commanded ≠ position → (t.banks.get l).motion = .moving (s.now + 30000000)) ∧
        ((s.banks.get l).commanded = position → (t.banks.get l).motion = (s.banks.get l).motion) ∧
        ((s.channels.get other).activity ≠ .idle →
          t.channels.get other = s.channels.get other ∧ t.directory = s.directory ∧
          t.sched.classes = (s.choose ch).sched.classes ∧
          (∀ m, m ≠ l → t.banks.get m = s.banks.get m) ∧
          ∀ m, m ≠ i → (f.plan = .dual → m ≠ k) → t.buffers.get m = s.buffers.get m)) ∧
    ((s.banks.get l).motion = .still → (s.banks.get l).commanded = position →
      (s.channels.get other).activity ≠ .idle →
      ∀ sense : Sense, sense = (match l with | .A => a | .B => b) →
      ∃ (t : State) (f : Flight), exec (.dispatchPass a b) s = .next t ∧
        KeepsBut [.buffers, .sched, .banks, .channels, .directory, .now] s t ∧ StartsAs s ch j f ∧ LeavesItsQueue j t ∧
        t.channels.get other = s.channels.get other ∧ t.sched.classes = (s.choose ch).sched.classes ∧
        (sense.map Fin.val = some position →
          t.channels.get ch = { s.channels.get ch with activity := .busy (.guard (s.now + 2000000)) f } ∧
          t.banks.get l = { s.banks.get l with holder := some ch, sensed := some position } ∧
          (∀ m, m ≠ l → t.banks.get m = s.banks.get m) ∧ t.directory = s.directory ∧
          ∃ i k : Fin 4, TakesBuffers s t j.id f.plan i k ∧
            ∀ m, m ≠ i → (f.plan = .dual → m ≠ k) → t.buffers.get m = s.buffers.get m) ∧
        (sense.map Fin.val ≠ some position →
          t.channels.get ch = { s.channels.get ch with activity := .idle, accumulator := [] } ∧
          t.banks.get l = { s.banks.get l with
            holder := none, sensed := sense.map Fin.val, service := .outOfService, mark := true } ∧
          (BankLaw s → ∀ m, m ≠ l → t.banks.get m = s.banks.get m) ∧
          Ended f.work .bankFault s t ∧ t.sched.dispatchCalled = true ∧
          ∀ m : Fin 4, t.buffers.get m = (s.buffers.get m).filter (fun h => h.holder != j.id)))) ∧
  ∀ (a b : Sense) (s : State), ∃ t, exec (.dispatchPass a b) s = .next t ∧ Passes (sensesOf a b) s t

/-- R175: when a job is eligible for a channel. R176, R177: the order in which a channel's job is chosen: its verify job, the
demand queue, the strict classes, and the weighted classes by credit, with a reload of every weighted class where all
credits are spent; where none of the four steps yields an eligible job, none is chosen and nothing is spent. -/
def Obligations.ChoiceGoesVerifyDemandStrictWeighted : Prop :=
  ∀ (s : State) (ch : Letter),
    (∀ j : Job, s.eligible ch j = true ↔ EligibleOn s ch j) ∧
    (s.sched.verifyPlaces.get ch = true → s.eligible ch (.verify ch) = true →
      s.choose ch = { sched := s.sched, job := some (.verify ch) }) ∧
    (s.sched.verifyPlaces.get ch = false ∨ s.eligible ch (.verify ch) = false →
      (∀ before d after, s.sched.demandQueue = before ++ d :: after →
        (∀ e ∈ before, s.eligible ch e.job = false) → s.eligible ch d.job = true →
        s.choose ch = { sched := s.sched, job := some d.job }) ∧
      ((∀ d ∈ s.sched.demandQueue, s.eligible ch d.job = false) →
        (∀ (c : Fin 4) (before : List Nat) (id : Nat) (after : List Nat), (s.sched.classes.get c).weight = 0 →
          s.sched.classQueues.get c = before ++ id :: after →
          (∀ i ∈ before, s.eligible ch (.test (.scheduled c) i) = false) →
          s.eligible ch (.test (.scheduled c) id) = true →
          (∀ k, k < c → (s.sched.classes.get k).weight = 0 →
            ∀ i ∈ s.sched.classQueues.get k, s.eligible ch (.test (.scheduled k) i) = false) →
          s.choose ch = { sched := s.sched, job := some (.test (.scheduled c) id) }) ∧
        ((∀ k, (s.sched.classes.get k).weight = 0 →
            ∀ i ∈ s.sched.classQueues.get k, s.eligible ch (.test (.scheduled k) i) = false) →
          ∀ (c : Fin 4) (before : List Nat) (id : Nat) (after : List Nat), (s.sched.classes.get c).weight ≠ 0 →
            s.sched.classQueues.get c = before ++ id :: after →
            (∀ i ∈ before, s.eligible ch (.test (.scheduled c) i) = false) →
            s.eligible ch (.test (.scheduled c) id) = true →
            (0 < (s.sched.classes.get c).credit →
              (∀ k, k < c → (s.sched.classes.get k).weight ≠ 0 → 0 < (s.sched.classes.get k).credit →
                ∀ i ∈ s.sched.classQueues.get k, s.eligible ch (.test (.scheduled k) i) = false) →
              ∃ u, s.choose ch = { sched := u, job := some (.test (.scheduled c) id) } ∧
                u = { s.sched with
                  classes := s.sched.classes.set c
                    { s.sched.classes.get c with credit := (s.sched.classes.get c).credit - 1 } }) ∧
            ((∀ k, (s.sched.classes.get k).weight ≠ 0 → (s.sched.classes.get k).credit ≠ 0 →
                ∀ i ∈ s.sched.classQueues.get k, s.eligible ch (.test (.scheduled k) i) = false) →
              (∀ k, k < c → (s.sched.classes.get k).weight ≠ 0 →
                ∀ i ∈ s.sched.classQueues.get k, s.eligible ch (.test (.scheduled k) i) = false) →
              ∃ u, s.choose ch = { sched := u, job := some (.test (.scheduled c) id) } ∧
                (u.classes.get c).credit = (s.sched.classes.get c).weight - 1 ∧
                ∀ k, k ≠ c → (u.classes.get k).credit = (s.sched.classes.get k).weight))) ∧
      ((∀ d ∈ s.sched.demandQueue, s.eligible ch d.job = false) →
        (∀ k, ∀ i ∈ s.sched.classQueues.get k, s.eligible ch (.test (.scheduled k) i) = false) →
        s.choose ch = { sched := s.sched, job := none }))

/-- R180, R181: while a window is open and no channel is idle, the one queued DEMAND job pre-empts the one job that
qualifies as its victim: the victim goes back to the head of its span's class queue, and its channel takes the DEMAND job.
Of the jobs that qualify the victim is the one of the highest class, then the one dispatched later, then the one on
channel B; and several DEMAND jobs are taken in queue order, each in the state that the one before it left, wherever the
bank stands. -/
def Obligations.PreemptionGivesTheChannelToTheDemandJob : Prop :=
  (∀ (a b : Sense) (ch other : Letter) (stage : Stage) (f : Flight) (c : Fin 4) (id rev demand : Nat) (q r : SpanRecord)
    (s : State),
    ch ≠ other → s.timeBase.windowOpen = true → DirectoryLaw s →
    (s.channels.get ch).activity = .busy stage f → f.work = .test (.scheduled c) id rev →
    (s.sched.classes.get c).preemptible = true →
    (∃ g, (s.channels.get other).activity.flight? = some g ∧ ∀ k i v, g.work ≠ .test (.scheduled k) i v) →
    s.sched.demandQueue = [{ span := demand, learn := false }] →
    q ∈ s.spans → q.id = demand → r ∈ s.spans → r.id = id →
    s.present q.bank = true → (s.banks.get q.bank).service = .inService →
    (s.banks.get q.bank).holder ≠ some other → s.inputs.inhibit = false →
    (if s.fitted ch = true then 2 else 1) ≤
      (([0, 1, 2, 3] : List (Fin 4)).filter
        (fun i => ((s.buffers.get i).filter (fun h => h.holder != .span id)).isNone)).length →
    ((s.banks.get q.bank).motion ≠ .still ∨ (s.banks.get q.bank).commanded ≠ q.position) →
    ∃ t g, exec (.dispatchPass a b) s = .next t ∧ t.channels.get other = s.channels.get other ∧
      (t.channels.get ch).activity = .busy .switching g ∧ g.work = .test .demand demand q.revision ∧
      t.sched.demandQueue = [] ∧ t.sched.classQueues.get r.cls = id :: s.sched.classQueues.get r.cls ∧
      t.sched.classes = s.sched.classes ∧ t.directory = s.directory ∧ t.sched.dispatchCalled = true ∧
      (t.banks.get q.bank).holder = some ch) ∧
  (∀ (s : State) (demand : Nat),
    (s.victimFor demand = none ↔ ∀ ch f c id, ¬ Qualifies s demand ch f c id) ∧
    ∀ v, s.victimFor demand = some v →
      ∃ f, IsVictim s demand v.channel f v.cls v.span ∧ f.dispatchTime = v.dispatchTime) ∧
  ∀ (a b : Sense) (s : State), s.timeBase.windowOpen = true → (∀ ch, (s.channels.get ch).activity ≠ .idle) →
    ∃ t w, exec (.dispatchPass a b) s = .next t ∧
      PreemptsInTurn (sensesOf a b) s.waitingDemand { s with sched := { s.sched with dispatchCalled := false } } w ∧
      t = { w with now := s.now + 1 }

/-! ### The analysis engine -/

/-- R101, R102, R107: an idle engine takes the job at the head of its queue, copies its input and sets its completion
due. -/
def Obligations.AnalysisTakeCopiesTheInput : Prop :=
  ∀ (f : Flight) (rest : List Flight) (levels : List Nat) (s : State), s.engine.current = none →
    s.engine.queue = f :: rest → (s.traceOf f.work.id .nm1625).map Trace.levels = some levels →
    (∀ kind id rev, f.work = .test kind id rev → ∃ r ∈ s.spans, r.id = id ∧ r.state ≠ .retiring) → DirectoryLaw s →
    ∃ t a, exec .analysisTake s = .next t ∧ KeepsBut [.engine] s t ∧ t.engine = { queue := rest, current := some a } ∧
      a.flight = f ∧ a.input.primary = levels ∧
      a.input.secondary = (s.traceOf f.work.id .nm1310).map Trace.levels ∧ a.input.snapshot = f.snapshot ∧
      a.input.trim = (f.recorded.map Recorded.trim).getD 0 ∧
      a.due = s.now + f.snapshot.profile.pointCount * (if a.input.secondary.isSome then 2 else 1) * 1000000 / 1024 ∧
      (∀ kind id rev, f.work = .test kind id rev → ∀ r ∈ s.spans, r.id = id →
        ∃ c, a.input.subject = .span c ∧ c.fields = r.clamped ∧
          c.landmarks = (if kind = .learn then [] else r.landmarks)) ∧
      (∀ own coil, f.work = .verify own coil → a.input.subject = .coil coil)

/-- R105, R19, R104, R121: an analysis completion discards the result of a RETIRING span, which becomes EMPTY, and of a
cancelled job; and a revision that has changed since dispatch makes the outcome STALE. Each completion frees the job's
buffers and takes the next job in the same act (R101, R105), and leaves the clock at the due time, the model's choice of
log entry 1. -/
def Obligations.AnalysisCompletionDiscardsOrFindsStale : Prop :=
  ∀ (a : Analysis) (kind : TestKind) (id rev : Nat) (r : SpanRecord) (s : State), DirectoryLaw s →
    s.engine.current = some a → a.flight.work = .test kind id rev → r ∈ s.spans → r.id = id →
    (r.state = .retiring →
      ∃ t, exec .analysisCompletion s = .next t ∧ Finishes a s t ∧ Emptied id s t ∧
        KeepsBut [.now, .directory, .table, .buffers, .sched, .engine] s t) ∧
    (r.state ≠ .retiring → a.flight.cancelled = true →
      ∃ t, exec .analysisCompletion s = .next t ∧ Finishes a s t ∧ KeepsBut [.now, .buffers, .sched, .engine] s t) ∧
    (r.state ≠ .retiring → a.flight.cancelled = false → r.revision ≠ rev →
      ∃ t, exec .analysisCompletion s = .next t ∧ Finishes a s t ∧
        SpanBecomes id (SpanRecord.ended kind .stale s.timeBase.windowNumber) s t ∧
        KeepsBut [.now, .directory, .buffers, .sched, .engine] s t)

/-- R120, R132, R133, R151: a SCHEDULED or DEMAND result is CLEAN without a baseline, and with one it is CLEAN or
FINDINGS by its finding list, and is applied to the condition table. Each completion frees the job's buffers and takes
the next job in the same act (R101, R105), and leaves the clock at the due time, the model's choice of log entry 1. -/
def Obligations.AnalysisCompletionJudgesATest : Prop :=
  ∀ (a : Analysis) (kind : TestKind) (id rev : Nat) (r : SpanRecord) (c : SpanCopy) (s : State), DirectoryLaw s →
    s.engine.current = some a → a.flight.work = .test kind id rev → kind ≠ .learn → r ∈ s.spans → r.id = id →
    r.state ≠ .retiring → a.flight.cancelled = false → r.revision = rev → a.input.subject = .span c →
    (c.landmarks = [] →
      ∃ t, exec .analysisCompletion s = .next t ∧ Finishes a s t ∧
        KeepsBut [.now, .directory, .buffers, .sched, .engine] s t ∧
        SpanBecomes id (fun q => { q with
          lastOutcome := .clean, lastWindow := s.timeBase.windowNumber
          lastEnd := some (extract a.input c).endDistance, missed := false, mark := true }) s t) ∧
    (c.landmarks ≠ [] →
      ∃ t findings k, exec .analysisCompletion s = .next t ∧ Finishes a s t ∧
        KeepsBut [.now, .directory, .table, .buffers, .sched, .engine] s t ∧
        findings = findingList a.flight.snapshot.guard c (extract a.input c)
          ((a.flight.recorded.map Recorded.degraded).getD false) ∧
        k = s.table.apply
          { span := id, findings := findings
            tolerance := c.fields.matchTolerance + (extract a.input c).pointDistance
            confirmCount := c.fields.confirmCount, clearCount := c.fields.clearCount
            window := s.timeBase.windowNumber } ∧
        t.table = k.table ∧
        SpanBecomes id (fun q => { q with
          lastOutcome := if findings = [] then .clean else .findings, lastWindow := s.timeBase.windowNumber
          lastEnd := some (extract a.input c).endDistance, missed := false, mark := true
          overflow := q.overflow || k.dropped != 0
          dropped := if k.dropped = 0 then q.dropped else min 255 (q.dropped + k.dropped) }) s t)

/-- R39, R40, R41, R134, R152, R17: a learn without an end of fibre ends with NO_END; a learned list that fits the pool
is adopted, and one that does not leaves the old list. Each completion frees the job's buffers and takes the next job in
the same act (R101, R105), and leaves the clock at the due time, the model's choice of log entry 1. -/
def Obligations.LearnAdoptsTheListOrEnds : Prop :=
  ∀ (a : Analysis) (id rev : Nat) (r : SpanRecord) (c : SpanCopy) (s : State), DirectoryLaw s →
    s.engine.current = some a → a.flight.work = .test .learn id rev → r ∈ s.spans → r.id = id → r.state = .learning →
    a.flight.cancelled = false → r.revision = rev → a.input.subject = .span c →
    ((extract a.input c).endBeyondRange = true →
      ∃ t, exec .analysisCompletion s = .next t ∧ Finishes a s t ∧
        KeepsBut [.now, .directory, .buffers, .sched, .engine] s t ∧
        SpanBecomes id (SpanRecord.ended .learn .noEnd s.timeBase.windowNumber) s t) ∧
    ((extract a.input c).endBeyondRange = false →
      (learnedList (extract a.input c)).length ≤ 2048 - (s.spans.map (fun q => q.landmarks.length)).sum →
      ∃ t, exec .analysisCompletion s = .next t ∧ Finishes a s t ∧
        KeepsBut [.now, .directory, .table, .buffers, .sched, .engine] s t ∧
        SpanBecomes id (fun q => { q with
          state := if q.resume = .held then .held else .active
          landmarks := learnedList (extract a.input c), revision := (q.revision + 1) % 65536
          lastOutcome := .clean, lastWindow := s.timeBase.windowNumber
          lastEnd := some (extract a.input c).endDistance, missed := false, mark := true }) s t ∧
        t.table = { s.table with
          conditions := s.table.conditions.map (fun d =>
            if d.span = id ∧ d.state.isOpen = true then { d with state := .retired, mark := true } else d) }) ∧
    ((extract a.input c).endBeyondRange = false →
      2048 - (s.spans.map (fun q => q.landmarks.length)).sum < (learnedList (extract a.input c)).length →
      ∃ t, exec .analysisCompletion s = .next t ∧ Finishes a s t ∧
        KeepsBut [.now, .directory, .buffers, .sched, .engine] s t ∧
        SpanBecomes id (fun q => { q with
          state := if q.state = .learning then q.resume else q.state
          lastOutcome := .clean, lastWindow := s.timeBase.windowNumber
          lastEnd := some (extract a.input c).endDistance, missed := false, mark := true }) s t)

/-- R136, R137, R97: a verify analysis writes the trim and the DEGRADED flag of the channel that ran the job, and marks
the channel where one changes. Each completion frees the job's buffers and takes the next job in the same act (R101,
R105), and leaves the clock at the due time, the model's choice of log entry 1. -/
def Obligations.VerifyWritesTheTrim : Prop :=
  ∀ (a : Analysis) (own : Letter) (coil : Coil) (s : State), s.engine.current = some a →
    a.flight.work = .verify own coil → a.flight.cancelled = false →
    ∃ t c d, exec .analysisCompletion s = .next t ∧ Finishes a s t ∧
      KeepsBut [.now, .channels, .buffers, .sched, .engine] s t ∧ c = s.channels.get a.flight.channel ∧
      t.channels = s.channels.set a.flight.channel d ∧ d.activity = c.activity ∧ d.accumulator = c.accumulator ∧
      d.mark = (c.mark || decide (d.trim ≠ c.trim ∨ d.degraded ≠ c.degraded)) ∧
      (inputEnd? a.input 0 = none → d.trim = c.trim ∧ d.degraded = true) ∧
      ∀ e, inputEnd? a.input 0 = some e → ∀ error : Int,
        error = ((e * a.input.snapshot.profile.spacing + a.input.snapshot.profile.spacing / 2 : Nat) : Int) -
          (roundDiv (coil.length * 2 * coil.groupIndex) 749481 : Nat) →
        (error < -256 ∨ 256 < error → d.trim = c.trim ∧ d.degraded = true) ∧
        (-256 ≤ error → error ≤ 256 → d.trim = max (-64) (min 63 (-error)) ∧ d.degraded = false)

/-! ### Arithmetic -/

/-- R1: rounding goes to the nearest integer with an exact half to the larger, truncation drops the fraction, clamping takes
the nearer bound, saturation stays at the greatest value, and a counter of 0..65535 wraps to 0. -/
def Obligations.ArithmeticFollowsItsConventions : Prop :=
  (∀ a b : Nat, 0 < b → 2 * b * roundDiv a b ≤ 2 * a + b ∧ 2 * a + b < 2 * b * (roundDiv a b + 1)) ∧
  (∀ a b : Nat, 0 < b → b * (a / b) ≤ a ∧ a < b * (a / b + 1)) ∧
  (∀ lo hi x : Nat, lo ≤ hi → (x < lo → clamp lo hi x = lo) ∧ (hi < x → clamp lo hi x = hi) ∧
    (lo ≤ x → x ≤ hi → clamp lo hi x = x)) ∧
  (∀ top n : Nat, n < top → satSucc top n = n + 1) ∧ (∀ top : Nat, satSucc top top = top) ∧
  (∀ n : Nat, n < 65535 → wrapSucc n = n + 1) ∧ wrapSucc 65535 = 0

/-- R69, R86: the level of a mean of 1 to 65535 is 5000 times its logarithm to base 10, rounded: the mean to the power 10000
lies between 10 to the power 2L - 1 and 10 to the power 2L + 1. The level of 0 is 0. -/
def Obligations.LevelsAreRoundedLogarithms : Prop :=
  levelOf 0 = 0 ∧
  ∀ m : Nat, 1 ≤ m → m ≤ 65535 →
    10 ^ (2 * levelOf m) ≤ 10 * m ^ 10000 ∧ m ^ 10000 < 10 ^ (2 * levelOf m + 1)

/-- R118, R131, R29, R39, R135: every distance that extraction gives and every finding's distance is at most the range
distance, every finding carries the DEGRADED flag of its job, and a learned list is a landmark list of 1 to 32 entries
that ends in a FAR_END at the end distance, every value in its range, and its other entries are those of the events that
R135 keeps, the first at each distance short of the end, each with the kind, distance, loss and height of its event.
R108 to R118: on a trace of P levels, with w and g as every snapshot holds them (R44, R50), the end of fibre, the
events, their fields and their distances are those of the runs of the trace. R123, R124: matching takes the landmarks
one at a time, each the nearest event that it may take. R125 to R130: the finding list holds a finding for each
departure, in the order of R125, findings of one kind and distance in the order in which they were formed. -/
def Obligations.FindingsAndLearnedListsStayInRange : Prop :=
  (∀ (input : InputCopy) (c : SpanCopy) (guard : Nat) (degraded : Bool),
    (extract input c).endDistance ≤ c.rangeDistance ∧
    (∀ e ∈ (extract input c).events, e.distance ≤ c.rangeDistance) ∧
    ∀ f ∈ findingList guard c (extract input c) degraded, f.distance ≤ c.rangeDistance ∧ f.degraded = degraded) ∧
  (∀ x : Extraction, ListLaw (learnedList x) ∧ 1 ≤ (learnedList x).length ∧
    (learnedList x).getLast? = some { distance := x.endDistance, kind := .farEnd, loss := 0, height := 0 } ∧
    (∀ m ∈ learnedList x, m.loss ≤ 20000 ∧ m.height ≤ 24082 ∧ m.distance ≤ x.endDistance) ∧
    ∃ kept left, KeptEvents x.events kept left ∧
      ∀ m, m ∈ learnedList x ↔ m = { distance := x.endDistance, kind := .farEnd, loss := 0, height := 0 } ∨
        ∃ e, FirstAtDistance kept e ∧ e.distance < x.endDistance ∧ m = becomesLandmark e) ∧
  (∀ (input : InputCopy) (c : SpanCopy) (x : Extraction) (z : TraceReading) (threshold : Nat),
    x = extract input c → z = readOf input c x.endPoint → 1 ≤ z.window → 1 ≤ z.guard →
    input.primary.length = z.points →
    (∀ levels, input.secondary = some levels → levels.length = z.points) →
    threshold = ((input.primary.drop (z.points - 256)).take 256).sum / 256 + input.snapshot.profile.endMargin →
    (x.endBeyondRange = true → x.endPoint = z.points ∧
      ∀ i, z.lower ≤ i → i + z.window ≤ z.points → threshold < meanAt input.primary z.window i) ∧
    (x.endBeyondRange = false → z.lower ≤ x.endPoint ∧ x.endPoint + z.window ≤ z.points ∧
      meanAt input.primary z.window x.endPoint ≤ threshold ∧
      ∀ i, z.lower ≤ i → i < x.endPoint → threshold < meanAt input.primary z.window i) ∧
    x.endDistance = placeOf input c x.endPoint ∧ x.hasSecondary = input.secondary.isSome ∧
    x.pointDistance = roundDiv (input.snapshot.profile.spacing * 749481) (2 * c.fields.groupIndex) ∧
    x.events.length ≤ 64 ∧ (x.events.map Event.location).Pairwise (· < ·) ∧
    (∀ e ∈ x.events, z.EventAt e.location e.reflective ∧ EventFields z e ∧ e.distance = placeOf input c e.location) ∧
    (∀ location reflective, z.EventAt location reflective →
      (∃ e ∈ x.events, e.location = location ∧ e.reflective = reflective) ∨
      (x.truncated = true ∧ x.events.length = 64 ∧ ∀ e ∈ x.events, e.location < location)) ∧
    (x.truncated = true → ∃ location reflective, z.EventAt location reflective ∧
      ∀ e ∈ x.events, e.location < location)) ∧
  (∀ (t : Nat) (m : Landmark) (ms : List Landmark) (events : List Event),
    matchLandmarks t [] events = { pairs := [], unmatched := events } ∧
    ((∀ e ∈ events, ¬ MayTake t m e) → matchLandmarks t (m :: ms) events = matchLandmarks t ms events) ∧
    ∀ e, Takes t m events e → ∀ rest, rest = matchLandmarks t ms (events.filter (fun o => o.location != e.location)) →
      matchLandmarks t (m :: ms) events = { pairs := (m, e) :: rest.pairs, unmatched := rest.unmatched }) ∧
  ∀ (guard : Nat) (c : SpanCopy) (x : Extraction) (degraded : Bool) (t : Nat),
    t = c.fields.matchTolerance + x.pointDistance →
    (findingList guard c x degraded).Pairwise (fun f g => f.distance < g.distance ∨
      (f.distance = g.distance ∧ kindOrder f.kind ≤ kindOrder g.kind)) ∧
    ∀ (kind : FaultKind) (distance : Nat),
      (findingList guard c x degraded).filter (fun f => f.kind == kind && f.distance == distance) =
        (formedFindings guard c x degraded t (matchLandmarks t c.landmarks x.events)).filter
          (fun f => f.kind == kind && f.distance == distance)

/-! ### Conditions under a result -/

/-- R144 to R151: what one result does to the condition table. A CLEAN result counts a miss against every open condition of
its span. A finding that no condition is paired with creates a condition in a free slot. A finding whose only candidate is
one condition updates it. Conditions of other spans stand while there is room. Several findings: the pairs made (R145), the
misses of what they leave, then the findings one by one, each updating its condition or creating one, in a free slot, in
one freed by displacement in the order of R150, or in none, and then the finding is dropped (R151). -/
def Obligations.ResultsUpdateTheConditionTable : Prop :=
  (∀ (T : CondTable) (r : Result), (T.conditions.map Condition.tag).Nodup →
    (r.findings = [] →
      T.apply r =
        { table := { T with conditions := T.conditions.map (fun c =>
            if c.span = r.span then
              match c.state with
              | .suspect => { c with state := .retired, mark := true }
              | .confirmed =>
                { c with misses := 1, state := if r.clearCount = 1 then .retired else .clearing, mark := true }
              | .clearing =>
                { c with
                  misses := c.misses + 1, state := if r.clearCount ≤ c.misses + 1 then .retired else .clearing
                  mark := c.mark || decide (r.clearCount ≤ c.misses + 1) }
              | .retired => c
            else c) },
          excluded := [], dropped := 0 }) ∧
    (∀ f : Finding, r.findings = [f] → T.conditions.length < 96 → (∀ c ∈ T.conditions, r.considers f c = false) →
      ∃ tag, (T.apply r).dropped = 0 ∧ tag ≠ 0 ∧ (∀ c ∈ T.conditions, c.tag ≠ tag) ∧
        (T.tagCounter ≠ 0 → (∀ c ∈ T.conditions, c.tag ≠ T.tagCounter) → tag = T.tagCounter) ∧
        (T.apply r).table.tagCounter = (tag + 1) % 65536 ∧ (T.apply r).table.severity = T.severity ∧
        (T.apply r).table.conditions = (T.apply { r with findings := [] }).table.conditions ++
          [{ tag := tag, span := r.span, kind := f.kind
             state := if f.kind = .break_ ∨ r.confirmCount = 1 then .confirmed else .suspect
             distance := f.distance, magnitude := f.magnitude, hits := 1, misses := 0, firstSeen := r.window
             lastSeen := r.window, single := f.single, degraded := f.degraded, acknowledged := false, mark := true }]) ∧
    (∀ (f : Finding) (c : Condition), r.findings = [f] → c ∈ T.conditions → r.considers f c = true →
      (∀ d ∈ T.conditions, d ≠ c → r.considers f d = false) →
      ∃ c', (T.apply r).dropped = 0 ∧ (T.apply r).table.tagCounter = T.tagCounter ∧
        (T.apply r).table.conditions = T.conditions.map (fun d => if d = c then c' else r.missUnpaired [] d) ∧
        c'.tag = c.tag ∧ c'.span = c.span ∧ c'.firstSeen = c.firstSeen ∧ c'.distance = f.distance ∧
        c'.magnitude = f.magnitude ∧ c'.single = f.single ∧ c'.degraded = f.degraded ∧ c'.misses = 0 ∧
        c'.hits = min 15 (c.hits + 1) ∧ c'.lastSeen = r.window ∧
        c'.kind = (if f.kind = .bend ∧ c.kind = .loss then .bend else c.kind) ∧
        (c.state = .suspect → c'.state = if r.confirmCount ≤ c'.hits then .confirmed else .suspect) ∧
        (c.state = .confirmed ∨ c.state = .clearing → c'.state = .confirmed) ∧
        c'.acknowledged = (c.acknowledged && !(decide (f.kind = .bend ∧ c.kind = .loss)) && c.state != .clearing) ∧
        c'.mark = (c.mark || decide (c'.state ≠ c.state) || decide (c'.kind ≠ c.kind) ||
          (decide (f.magnitude ≠ c.magnitude) && !c.acknowledged))) ∧
    (T.conditions.length + r.findings.length ≤ 96 →
      (∀ c ∈ T.conditions, c.span ≠ r.span → c ∈ (T.apply r).table.conditions) ∧ (T.apply r).dropped = 0)) ∧
  (∀ (r : Result) (f : Finding) (c : Condition), r.considers f c = true ↔
    (c.span = r.span ∧ c.state.isOpen = true ∧
      (f.kind = c.kind ∨ ((f.kind = .bend ∨ f.kind = .loss) ∧ (c.kind = .bend ∨ c.kind = .loss))) ∧
      f.distance ≤ c.distance + r.tolerance ∧ c.distance ≤ f.distance + r.tolerance)) ∧
  (∀ (T : CondTable) (r : Result), PairsMade r T.conditions (r.pairs T.conditions) ∧
    T.apply r = r.findings.zipIdx.foldl (Folding.take r (r.pairs T.conditions))
      { table := { T with conditions := T.conditions.map (fun c =>
          if c.span = r.span ∧ c.state.isOpen = true ∧ c.tag ∉ (r.pairs T.conditions).map Candidate.tag then
            c.miss r.clearCount else c) }
        excluded := (r.pairs T.conditions).map Candidate.tag, dropped := 0 }) ∧
  (∀ (r : Result) (pairs : List Candidate) (k : Folding) (f : Finding) (i : Nat),
    pairs.Pairwise (fun p q => p.finding ≠ q.finding ∧ p.tag ≠ q.tag) →
    ((∀ p ∈ pairs, p.finding ≠ i) → Folding.take r pairs k (f, i) = k.create r f) ∧
    ∀ p ∈ pairs, p.finding = i → Folding.take r pairs k (f, i) =
      { k with table := { k.table with conditions := k.table.conditions.map (fun c =>
          if c.tag = p.tag then c.hit r.confirmCount r.window f else c) } }) ∧
  ∀ (r : Result) (k : Folding) (f : Finding),
    (k.table.conditions.length < 96 →
      ∃ tag, tag ≠ 0 ∧ (∀ c ∈ k.table.conditions, c.tag ≠ tag) ∧
        k.create r f =
          { table := { k.table with
              conditions := k.table.conditions ++ [r.newCondition tag f], tagCounter := (tag + 1) % 65536 }
            excluded := tag :: k.excluded, dropped := k.dropped }) ∧
    (k.table.conditions.length = 96 →
      (∀ d, Displaces k.table.severity r.window f.kind
          (k.table.conditions.filter (fun c => !k.excluded.contains c.tag)) d →
        ∃ tag, tag ≠ 0 ∧ (∀ c ∈ k.table.conditions, c.tag ≠ d.tag → c.tag ≠ tag) ∧
          k.create r f =
            { table := { k.table with
                conditions := k.table.conditions.filter (fun c => c.tag != d.tag) ++ [r.newCondition tag f]
                tagCounter := (tag + 1) % 65536 }
              excluded := tag :: k.excluded, dropped := k.dropped }) ∧
      ((∀ d ∈ k.table.conditions.filter (fun c => !k.excluded.contains c.tag), d.state ≠ .retired ∧
          d.state ≠ .clearing ∧ k.table.severity.of f.kind ≤ k.table.severity.of d.kind) →
        k.create r f = { k with dropped := k.dropped + 1 }))
end

