-- ==== Sys2Proof/Laws/State.lean ====
section
/-! SUPPORT. One lemma for each field and each update of the state, true by definition, so that no proof unfolds a record
update. -/

namespace Sys2Proof.Machine

@[simp] theorem Pair.get_set_self {α : Type} (p : Pair α) (l : Letter) (x : α) : (p.set l x).get l = x := by
  cases l <;> rfl

theorem Pair.get_set_ne {α : Type} (p : Pair α) {l k : Letter} (h : k ≠ l) (x : α) : (p.set l x).get k = p.get k := by
  cases l <;> cases k <;> first | rfl | exact absurd rfl h

@[simp] theorem Pair.get_map {α β : Type} (f : α → β) (p : Pair α) (l : Letter) : (p.map f).get l = f (p.get l) := by
  cases l <;> rfl

@[simp] theorem Quad.get_set_self {α : Type} (q : Quad α) (i : Fin 4) (x : α) : (q.set i x).get i = x := by
  fin_cases i <;> rfl

theorem Quad.get_set_ne {α : Type} (q : Quad α) {i k : Fin 4} (h : k ≠ i) (x : α) : (q.set i x).get k = q.get k := by
  fin_cases i <;> fin_cases k <;> first | rfl | exact absurd rfl h

@[simp] theorem Quad.get_map {α β : Type} (f : α → β) (q : Quad α) (i : Fin 4) : (q.map f).get i = f (q.get i) := by
  fin_cases i <;> rfl

@[simp] theorem Octet.get_set_self {α : Type} (o : Octet α) (i : Fin 8) (x : α) : (o.set i x).get i = x := by
  fin_cases i <;> rfl

theorem Octet.get_set_ne {α : Type} (o : Octet α) {i k : Fin 8} (h : k ≠ i) (x : α) : (o.set i x).get k = o.get k := by
  fin_cases i <;> fin_cases k <;> first | rfl | exact absurd rfl h


/-! ### setBank -/

@[simp] theorem State.setBank_link (s : State) (l : Letter) (b : Bank) : (s.setBank l b).link = s.link := rfl
@[simp] theorem State.setBank_directory (s : State) (l : Letter) (b : Bank) : (s.setBank l b).directory = s.directory := rfl
@[simp] theorem State.setBank_profiles (s : State) (l : Letter) (b : Bank) : (s.setBank l b).profiles = s.profiles := rfl
@[simp] theorem State.setBank_timeBase (s : State) (l : Letter) (b : Bank) : (s.setBank l b).timeBase = s.timeBase := rfl
@[simp] theorem State.setBank_sched (s : State) (l : Letter) (b : Bank) : (s.setBank l b).sched = s.sched := rfl
@[simp] theorem State.setBank_banks (s : State) (l : Letter) (b : Bank) :
    (s.setBank l b).banks = s.banks.set l b := rfl
@[simp] theorem State.setBank_thresholds (s : State) (l : Letter) (b : Bank) : (s.setBank l b).thresholds = s.thresholds := rfl
@[simp] theorem State.setBank_channels (s : State) (l : Letter) (b : Bank) : (s.setBank l b).channels = s.channels := rfl
@[simp] theorem State.setBank_buffers (s : State) (l : Letter) (b : Bank) : (s.setBank l b).buffers = s.buffers := rfl
@[simp] theorem State.setBank_engine (s : State) (l : Letter) (b : Bank) : (s.setBank l b).engine = s.engine := rfl
@[simp] theorem State.setBank_table (s : State) (l : Letter) (b : Bank) : (s.setBank l b).table = s.table := rfl
@[simp] theorem State.setBank_inputs (s : State) (l : Letter) (b : Bank) : (s.setBank l b).inputs = s.inputs := rfl
@[simp] theorem State.setBank_now (s : State) (l : Letter) (b : Bank) : (s.setBank l b).now = s.now := rfl
@[simp] theorem State.setBank_draws (s : State) (l : Letter) (b : Bank) : (s.setBank l b).draws = s.draws := rfl
@[simp] theorem State.setBank_pending (s : State) (l : Letter) (b : Bank) : (s.setBank l b).pending = s.pending := rfl

/-! ### setChannel -/

@[simp] theorem State.setChannel_link (s : State) (l : Letter) (c : Channel) : (s.setChannel l c).link = s.link := rfl
@[simp] theorem State.setChannel_directory (s : State) (l : Letter) (c : Channel) : (s.setChannel l c).directory = s.directory := rfl
@[simp] theorem State.setChannel_profiles (s : State) (l : Letter) (c : Channel) : (s.setChannel l c).profiles = s.profiles := rfl
@[simp] theorem State.setChannel_timeBase (s : State) (l : Letter) (c : Channel) : (s.setChannel l c).timeBase = s.timeBase := rfl
@[simp] theorem State.setChannel_sched (s : State) (l : Letter) (c : Channel) : (s.setChannel l c).sched = s.sched := rfl
@[simp] theorem State.setChannel_banks (s : State) (l : Letter) (c : Channel) : (s.setChannel l c).banks = s.banks := rfl
@[simp] theorem State.setChannel_thresholds (s : State) (l : Letter) (c : Channel) : (s.setChannel l c).thresholds = s.thresholds := rfl
@[simp] theorem State.setChannel_channels (s : State) (l : Letter) (c : Channel) :
    (s.setChannel l c).channels = s.channels.set l c := rfl
@[simp] theorem State.setChannel_buffers (s : State) (l : Letter) (c : Channel) : (s.setChannel l c).buffers = s.buffers := rfl
@[simp] theorem State.setChannel_engine (s : State) (l : Letter) (c : Channel) : (s.setChannel l c).engine = s.engine := rfl
@[simp] theorem State.setChannel_table (s : State) (l : Letter) (c : Channel) : (s.setChannel l c).table = s.table := rfl
@[simp] theorem State.setChannel_inputs (s : State) (l : Letter) (c : Channel) : (s.setChannel l c).inputs = s.inputs := rfl
@[simp] theorem State.setChannel_now (s : State) (l : Letter) (c : Channel) : (s.setChannel l c).now = s.now := rfl
@[simp] theorem State.setChannel_draws (s : State) (l : Letter) (c : Channel) : (s.setChannel l c).draws = s.draws := rfl
@[simp] theorem State.setChannel_pending (s : State) (l : Letter) (c : Channel) : (s.setChannel l c).pending = s.pending := rfl

/-! ### setActivity -/

@[simp] theorem State.setActivity_link (s : State) (l : Letter) (a : Activity) : (s.setActivity l a).link = s.link := rfl
@[simp] theorem State.setActivity_directory (s : State) (l : Letter) (a : Activity) : (s.setActivity l a).directory = s.directory := rfl
@[simp] theorem State.setActivity_profiles (s : State) (l : Letter) (a : Activity) : (s.setActivity l a).profiles = s.profiles := rfl
@[simp] theorem State.setActivity_timeBase (s : State) (l : Letter) (a : Activity) : (s.setActivity l a).timeBase = s.timeBase := rfl
@[simp] theorem State.setActivity_sched (s : State) (l : Letter) (a : Activity) : (s.setActivity l a).sched = s.sched := rfl
@[simp] theorem State.setActivity_banks (s : State) (l : Letter) (a : Activity) : (s.setActivity l a).banks = s.banks := rfl
@[simp] theorem State.setActivity_thresholds (s : State) (l : Letter) (a : Activity) : (s.setActivity l a).thresholds = s.thresholds := rfl
@[simp] theorem State.setActivity_channels (s : State) (l : Letter) (a : Activity) :
    (s.setActivity l a).channels = s.channels.set l { s.channels.get l with activity := a } := rfl
@[simp] theorem State.setActivity_buffers (s : State) (l : Letter) (a : Activity) : (s.setActivity l a).buffers = s.buffers := rfl
@[simp] theorem State.setActivity_engine (s : State) (l : Letter) (a : Activity) : (s.setActivity l a).engine = s.engine := rfl
@[simp] theorem State.setActivity_table (s : State) (l : Letter) (a : Activity) : (s.setActivity l a).table = s.table := rfl
@[simp] theorem State.setActivity_inputs (s : State) (l : Letter) (a : Activity) : (s.setActivity l a).inputs = s.inputs := rfl
@[simp] theorem State.setActivity_now (s : State) (l : Letter) (a : Activity) : (s.setActivity l a).now = s.now := rfl
@[simp] theorem State.setActivity_draws (s : State) (l : Letter) (a : Activity) : (s.setActivity l a).draws = s.draws := rfl
@[simp] theorem State.setActivity_pending (s : State) (l : Letter) (a : Activity) : (s.setActivity l a).pending = s.pending := rfl

/-! ### callDispatch -/

@[simp] theorem State.callDispatch_link (s : State) : s.callDispatch.link = s.link := rfl
@[simp] theorem State.callDispatch_directory (s : State) : s.callDispatch.directory = s.directory := rfl
@[simp] theorem State.callDispatch_profiles (s : State) : s.callDispatch.profiles = s.profiles := rfl
@[simp] theorem State.callDispatch_timeBase (s : State) : s.callDispatch.timeBase = s.timeBase := rfl
@[simp] theorem State.callDispatch_sched (s : State) :
    s.callDispatch.sched = { s.sched with dispatchCalled := true } := rfl
@[simp] theorem State.callDispatch_banks (s : State) : s.callDispatch.banks = s.banks := rfl
@[simp] theorem State.callDispatch_thresholds (s : State) : s.callDispatch.thresholds = s.thresholds := rfl
@[simp] theorem State.callDispatch_channels (s : State) : s.callDispatch.channels = s.channels := rfl
@[simp] theorem State.callDispatch_buffers (s : State) : s.callDispatch.buffers = s.buffers := rfl
@[simp] theorem State.callDispatch_engine (s : State) : s.callDispatch.engine = s.engine := rfl
@[simp] theorem State.callDispatch_table (s : State) : s.callDispatch.table = s.table := rfl
@[simp] theorem State.callDispatch_inputs (s : State) : s.callDispatch.inputs = s.inputs := rfl
@[simp] theorem State.callDispatch_now (s : State) : s.callDispatch.now = s.now := rfl
@[simp] theorem State.callDispatch_draws (s : State) : s.callDispatch.draws = s.draws := rfl
@[simp] theorem State.callDispatch_pending (s : State) : s.callDispatch.pending = s.pending := rfl

/-! ### reach -/

@[simp] theorem State.reach_link (s : State) (due : Nat) : (s.reach due).link = s.link := rfl
@[simp] theorem State.reach_directory (s : State) (due : Nat) : (s.reach due).directory = s.directory := rfl
@[simp] theorem State.reach_profiles (s : State) (due : Nat) : (s.reach due).profiles = s.profiles := rfl
@[simp] theorem State.reach_timeBase (s : State) (due : Nat) : (s.reach due).timeBase = s.timeBase := rfl
@[simp] theorem State.reach_sched (s : State) (due : Nat) : (s.reach due).sched = s.sched := rfl
@[simp] theorem State.reach_banks (s : State) (due : Nat) : (s.reach due).banks = s.banks := rfl
@[simp] theorem State.reach_thresholds (s : State) (due : Nat) : (s.reach due).thresholds = s.thresholds := rfl
@[simp] theorem State.reach_channels (s : State) (due : Nat) : (s.reach due).channels = s.channels := rfl
@[simp] theorem State.reach_buffers (s : State) (due : Nat) : (s.reach due).buffers = s.buffers := rfl
@[simp] theorem State.reach_engine (s : State) (due : Nat) : (s.reach due).engine = s.engine := rfl
@[simp] theorem State.reach_table (s : State) (due : Nat) : (s.reach due).table = s.table := rfl
@[simp] theorem State.reach_inputs (s : State) (due : Nat) : (s.reach due).inputs = s.inputs := rfl
@[simp] theorem State.reach_now (s : State) (due : Nat) :
    (s.reach due).now = max s.now due := rfl
@[simp] theorem State.reach_draws (s : State) (due : Nat) : (s.reach due).draws = s.draws := rfl
@[simp] theorem State.reach_pending (s : State) (due : Nat) : (s.reach due).pending = s.pending := rfl

/-! ### modifySpan -/

@[simp] theorem State.modifySpan_link (s : State) (id : Nat) (f : SpanRecord → SpanRecord) : (s.modifySpan id f).link = s.link := rfl
@[simp] theorem State.modifySpan_directory (s : State) (id : Nat) (f : SpanRecord → SpanRecord) :
    (s.modifySpan id f).directory = s.directory.map (Entry.modify id f) := rfl
@[simp] theorem State.modifySpan_profiles (s : State) (id : Nat) (f : SpanRecord → SpanRecord) : (s.modifySpan id f).profiles = s.profiles := rfl
@[simp] theorem State.modifySpan_timeBase (s : State) (id : Nat) (f : SpanRecord → SpanRecord) : (s.modifySpan id f).timeBase = s.timeBase := rfl
@[simp] theorem State.modifySpan_sched (s : State) (id : Nat) (f : SpanRecord → SpanRecord) : (s.modifySpan id f).sched = s.sched := rfl
@[simp] theorem State.modifySpan_banks (s : State) (id : Nat) (f : SpanRecord → SpanRecord) : (s.modifySpan id f).banks = s.banks := rfl
@[simp] theorem State.modifySpan_thresholds (s : State) (id : Nat) (f : SpanRecord → SpanRecord) : (s.modifySpan id f).thresholds = s.thresholds := rfl
@[simp] theorem State.modifySpan_channels (s : State) (id : Nat) (f : SpanRecord → SpanRecord) : (s.modifySpan id f).channels = s.channels := rfl
@[simp] theorem State.modifySpan_buffers (s : State) (id : Nat) (f : SpanRecord → SpanRecord) : (s.modifySpan id f).buffers = s.buffers := rfl
@[simp] theorem State.modifySpan_engine (s : State) (id : Nat) (f : SpanRecord → SpanRecord) : (s.modifySpan id f).engine = s.engine := rfl
@[simp] theorem State.modifySpan_table (s : State) (id : Nat) (f : SpanRecord → SpanRecord) : (s.modifySpan id f).table = s.table := rfl
@[simp] theorem State.modifySpan_inputs (s : State) (id : Nat) (f : SpanRecord → SpanRecord) : (s.modifySpan id f).inputs = s.inputs := rfl
@[simp] theorem State.modifySpan_now (s : State) (id : Nat) (f : SpanRecord → SpanRecord) : (s.modifySpan id f).now = s.now := rfl
@[simp] theorem State.modifySpan_draws (s : State) (id : Nat) (f : SpanRecord → SpanRecord) : (s.modifySpan id f).draws = s.draws := rfl
@[simp] theorem State.modifySpan_pending (s : State) (id : Nat) (f : SpanRecord → SpanRecord) : (s.modifySpan id f).pending = s.pending := rfl

/-! ### writeOutcome -/

@[simp] theorem State.writeOutcome_link (s : State) (id : Nat) (o : LastOutcome) (e : Option Nat) : (s.writeOutcome id o e).link = s.link := rfl
@[simp] theorem State.writeOutcome_directory (s : State) (id : Nat) (o : LastOutcome) (e : Option Nat) :
    (s.writeOutcome id o e).directory =
      s.directory.map (Entry.modify id (SpanRecord.withOutcome o s.timeBase.windowNumber e)) := rfl
@[simp] theorem State.writeOutcome_profiles (s : State) (id : Nat) (o : LastOutcome) (e : Option Nat) : (s.writeOutcome id o e).profiles = s.profiles := rfl
@[simp] theorem State.writeOutcome_timeBase (s : State) (id : Nat) (o : LastOutcome) (e : Option Nat) : (s.writeOutcome id o e).timeBase = s.timeBase := rfl
@[simp] theorem State.writeOutcome_sched (s : State) (id : Nat) (o : LastOutcome) (e : Option Nat) : (s.writeOutcome id o e).sched = s.sched := rfl
@[simp] theorem State.writeOutcome_banks (s : State) (id : Nat) (o : LastOutcome) (e : Option Nat) : (s.writeOutcome id o e).banks = s.banks := rfl
@[simp] theorem State.writeOutcome_thresholds (s : State) (id : Nat) (o : LastOutcome) (e : Option Nat) : (s.writeOutcome id o e).thresholds = s.thresholds := rfl
@[simp] theorem State.writeOutcome_channels (s : State) (id : Nat) (o : LastOutcome) (e : Option Nat) : (s.writeOutcome id o e).channels = s.channels := rfl
@[simp] theorem State.writeOutcome_buffers (s : State) (id : Nat) (o : LastOutcome) (e : Option Nat) : (s.writeOutcome id o e).buffers = s.buffers := rfl
@[simp] theorem State.writeOutcome_engine (s : State) (id : Nat) (o : LastOutcome) (e : Option Nat) : (s.writeOutcome id o e).engine = s.engine := rfl
@[simp] theorem State.writeOutcome_table (s : State) (id : Nat) (o : LastOutcome) (e : Option Nat) : (s.writeOutcome id o e).table = s.table := rfl
@[simp] theorem State.writeOutcome_inputs (s : State) (id : Nat) (o : LastOutcome) (e : Option Nat) : (s.writeOutcome id o e).inputs = s.inputs := rfl
@[simp] theorem State.writeOutcome_now (s : State) (id : Nat) (o : LastOutcome) (e : Option Nat) : (s.writeOutcome id o e).now = s.now := rfl
@[simp] theorem State.writeOutcome_draws (s : State) (id : Nat) (o : LastOutcome) (e : Option Nat) : (s.writeOutcome id o e).draws = s.draws := rfl
@[simp] theorem State.writeOutcome_pending (s : State) (id : Nat) (o : LastOutcome) (e : Option Nat) : (s.writeOutcome id o e).pending = s.pending := rfl

/-! ### retireConditions -/

@[simp] theorem State.retireConditions_link (s : State) (id : Nat) : (s.retireConditions id).link = s.link := rfl
@[simp] theorem State.retireConditions_directory (s : State) (id : Nat) : (s.retireConditions id).directory = s.directory := rfl
@[simp] theorem State.retireConditions_profiles (s : State) (id : Nat) : (s.retireConditions id).profiles = s.profiles := rfl
@[simp] theorem State.retireConditions_timeBase (s : State) (id : Nat) : (s.retireConditions id).timeBase = s.timeBase := rfl
@[simp] theorem State.retireConditions_sched (s : State) (id : Nat) : (s.retireConditions id).sched = s.sched := rfl
@[simp] theorem State.retireConditions_banks (s : State) (id : Nat) : (s.retireConditions id).banks = s.banks := rfl
@[simp] theorem State.retireConditions_thresholds (s : State) (id : Nat) : (s.retireConditions id).thresholds = s.thresholds := rfl
@[simp] theorem State.retireConditions_channels (s : State) (id : Nat) : (s.retireConditions id).channels = s.channels := rfl
@[simp] theorem State.retireConditions_buffers (s : State) (id : Nat) : (s.retireConditions id).buffers = s.buffers := rfl
@[simp] theorem State.retireConditions_engine (s : State) (id : Nat) : (s.retireConditions id).engine = s.engine := rfl
@[simp] theorem State.retireConditions_table (s : State) (id : Nat) :
    (s.retireConditions id).table =
      { s.table with conditions := s.table.conditions.map (Condition.retireFor id) } := rfl
@[simp] theorem State.retireConditions_inputs (s : State) (id : Nat) : (s.retireConditions id).inputs = s.inputs := rfl
@[simp] theorem State.retireConditions_now (s : State) (id : Nat) : (s.retireConditions id).now = s.now := rfl
@[simp] theorem State.retireConditions_draws (s : State) (id : Nat) : (s.retireConditions id).draws = s.draws := rfl
@[simp] theorem State.retireConditions_pending (s : State) (id : Nat) : (s.retireConditions id).pending = s.pending := rfl

/-! ### becomeEmpty -/

@[simp] theorem State.becomeEmpty_link (s : State) (id : Nat) : (s.becomeEmpty id).link = s.link := rfl
@[simp] theorem State.becomeEmpty_directory (s : State) (id : Nat) :
    (s.becomeEmpty id).directory = s.directory.map (Entry.vacate id) := rfl
@[simp] theorem State.becomeEmpty_profiles (s : State) (id : Nat) : (s.becomeEmpty id).profiles = s.profiles := rfl
@[simp] theorem State.becomeEmpty_timeBase (s : State) (id : Nat) : (s.becomeEmpty id).timeBase = s.timeBase := rfl
@[simp] theorem State.becomeEmpty_sched (s : State) (id : Nat) : (s.becomeEmpty id).sched = s.sched := rfl
@[simp] theorem State.becomeEmpty_banks (s : State) (id : Nat) : (s.becomeEmpty id).banks = s.banks := rfl
@[simp] theorem State.becomeEmpty_thresholds (s : State) (id : Nat) : (s.becomeEmpty id).thresholds = s.thresholds := rfl
@[simp] theorem State.becomeEmpty_channels (s : State) (id : Nat) : (s.becomeEmpty id).channels = s.channels := rfl
@[simp] theorem State.becomeEmpty_buffers (s : State) (id : Nat) : (s.becomeEmpty id).buffers = s.buffers := rfl
@[simp] theorem State.becomeEmpty_engine (s : State) (id : Nat) : (s.becomeEmpty id).engine = s.engine := rfl
@[simp] theorem State.becomeEmpty_table (s : State) (id : Nat) :
    (s.becomeEmpty id).table = { s.table with conditions := s.table.conditions.map (Condition.retireFor id) } := rfl
@[simp] theorem State.becomeEmpty_inputs (s : State) (id : Nat) : (s.becomeEmpty id).inputs = s.inputs := rfl
@[simp] theorem State.becomeEmpty_now (s : State) (id : Nat) : (s.becomeEmpty id).now = s.now := rfl
@[simp] theorem State.becomeEmpty_draws (s : State) (id : Nat) : (s.becomeEmpty id).draws = s.draws := rfl
@[simp] theorem State.becomeEmpty_pending (s : State) (id : Nat) : (s.becomeEmpty id).pending = s.pending := rfl

/-! ### freeBuffersOf -/

@[simp] theorem State.freeBuffersOf_link (s : State) (j : JobId) : (s.freeBuffersOf j).link = s.link := rfl
@[simp] theorem State.freeBuffersOf_directory (s : State) (j : JobId) : (s.freeBuffersOf j).directory = s.directory := rfl
@[simp] theorem State.freeBuffersOf_profiles (s : State) (j : JobId) : (s.freeBuffersOf j).profiles = s.profiles := rfl
@[simp] theorem State.freeBuffersOf_timeBase (s : State) (j : JobId) : (s.freeBuffersOf j).timeBase = s.timeBase := rfl
@[simp] theorem State.freeBuffersOf_sched (s : State) (j : JobId) :
    (s.freeBuffersOf j).sched = { s.sched with dispatchCalled := true } := rfl
@[simp] theorem State.freeBuffersOf_banks (s : State) (j : JobId) : (s.freeBuffersOf j).banks = s.banks := rfl
@[simp] theorem State.freeBuffersOf_thresholds (s : State) (j : JobId) : (s.freeBuffersOf j).thresholds = s.thresholds := rfl
@[simp] theorem State.freeBuffersOf_channels (s : State) (j : JobId) : (s.freeBuffersOf j).channels = s.channels := rfl
@[simp] theorem State.freeBuffersOf_buffers (s : State) (j : JobId) :
    (s.freeBuffersOf j).buffers = s.buffers.map (freeIfHeldBy j) := rfl
@[simp] theorem State.freeBuffersOf_engine (s : State) (j : JobId) : (s.freeBuffersOf j).engine = s.engine := rfl
@[simp] theorem State.freeBuffersOf_table (s : State) (j : JobId) : (s.freeBuffersOf j).table = s.table := rfl
@[simp] theorem State.freeBuffersOf_inputs (s : State) (j : JobId) : (s.freeBuffersOf j).inputs = s.inputs := rfl
@[simp] theorem State.freeBuffersOf_now (s : State) (j : JobId) : (s.freeBuffersOf j).now = s.now := rfl
@[simp] theorem State.freeBuffersOf_draws (s : State) (j : JobId) : (s.freeBuffersOf j).draws = s.draws := rfl
@[simp] theorem State.freeBuffersOf_pending (s : State) (j : JobId) : (s.freeBuffersOf j).pending = s.pending := rfl

/-! ### free1310 -/

@[simp] theorem State.free1310_link (s : State) (j : JobId) : (s.free1310 j).link = s.link := rfl
@[simp] theorem State.free1310_directory (s : State) (j : JobId) : (s.free1310 j).directory = s.directory := rfl
@[simp] theorem State.free1310_profiles (s : State) (j : JobId) : (s.free1310 j).profiles = s.profiles := rfl
@[simp] theorem State.free1310_timeBase (s : State) (j : JobId) : (s.free1310 j).timeBase = s.timeBase := rfl
@[simp] theorem State.free1310_sched (s : State) (j : JobId) :
    (s.free1310 j).sched = { s.sched with dispatchCalled := true } := rfl
@[simp] theorem State.free1310_banks (s : State) (j : JobId) : (s.free1310 j).banks = s.banks := rfl
@[simp] theorem State.free1310_thresholds (s : State) (j : JobId) : (s.free1310 j).thresholds = s.thresholds := rfl
@[simp] theorem State.free1310_channels (s : State) (j : JobId) : (s.free1310 j).channels = s.channels := rfl
@[simp] theorem State.free1310_buffers (s : State) (j : JobId) :
    (s.free1310 j).buffers = s.buffers.map (freeIfHeldAs j .nm1310) := rfl
@[simp] theorem State.free1310_engine (s : State) (j : JobId) : (s.free1310 j).engine = s.engine := rfl
@[simp] theorem State.free1310_table (s : State) (j : JobId) : (s.free1310 j).table = s.table := rfl
@[simp] theorem State.free1310_inputs (s : State) (j : JobId) : (s.free1310 j).inputs = s.inputs := rfl
@[simp] theorem State.free1310_now (s : State) (j : JobId) : (s.free1310 j).now = s.now := rfl
@[simp] theorem State.free1310_draws (s : State) (j : JobId) : (s.free1310 j).draws = s.draws := rfl
@[simp] theorem State.free1310_pending (s : State) (j : JobId) : (s.free1310 j).pending = s.pending := rfl

/-! ### fillBuffer -/

@[simp] theorem State.fillBuffer_link (s : State) (j : JobId) (r : Role) (t : Trace) : (s.fillBuffer j r t).link = s.link := rfl
@[simp] theorem State.fillBuffer_directory (s : State) (j : JobId) (r : Role) (t : Trace) : (s.fillBuffer j r t).directory = s.directory := rfl
@[simp] theorem State.fillBuffer_profiles (s : State) (j : JobId) (r : Role) (t : Trace) : (s.fillBuffer j r t).profiles = s.profiles := rfl
@[simp] theorem State.fillBuffer_timeBase (s : State) (j : JobId) (r : Role) (t : Trace) : (s.fillBuffer j r t).timeBase = s.timeBase := rfl
@[simp] theorem State.fillBuffer_sched (s : State) (j : JobId) (r : Role) (t : Trace) : (s.fillBuffer j r t).sched = s.sched := rfl
@[simp] theorem State.fillBuffer_banks (s : State) (j : JobId) (r : Role) (t : Trace) : (s.fillBuffer j r t).banks = s.banks := rfl
@[simp] theorem State.fillBuffer_thresholds (s : State) (j : JobId) (r : Role) (t : Trace) : (s.fillBuffer j r t).thresholds = s.thresholds := rfl
@[simp] theorem State.fillBuffer_channels (s : State) (j : JobId) (r : Role) (t : Trace) : (s.fillBuffer j r t).channels = s.channels := rfl
@[simp] theorem State.fillBuffer_buffers (s : State) (j : JobId) (r : Role) (t : Trace) :
    (s.fillBuffer j r t).buffers = s.buffers.map (fillIfHeldAs j r t) := rfl
@[simp] theorem State.fillBuffer_engine (s : State) (j : JobId) (r : Role) (t : Trace) : (s.fillBuffer j r t).engine = s.engine := rfl
@[simp] theorem State.fillBuffer_table (s : State) (j : JobId) (r : Role) (t : Trace) : (s.fillBuffer j r t).table = s.table := rfl
@[simp] theorem State.fillBuffer_inputs (s : State) (j : JobId) (r : Role) (t : Trace) : (s.fillBuffer j r t).inputs = s.inputs := rfl
@[simp] theorem State.fillBuffer_now (s : State) (j : JobId) (r : Role) (t : Trace) : (s.fillBuffer j r t).now = s.now := rfl
@[simp] theorem State.fillBuffer_draws (s : State) (j : JobId) (r : Role) (t : Trace) : (s.fillBuffer j r t).draws = s.draws := rfl
@[simp] theorem State.fillBuffer_pending (s : State) (j : JobId) (r : Role) (t : Trace) : (s.fillBuffer j r t).pending = s.pending := rfl

/-! ### releaseBank -/

@[simp] theorem State.releaseBank_link (s : State) (ch : Letter) : (s.releaseBank ch).link = s.link := rfl
@[simp] theorem State.releaseBank_directory (s : State) (ch : Letter) : (s.releaseBank ch).directory = s.directory := rfl
@[simp] theorem State.releaseBank_profiles (s : State) (ch : Letter) : (s.releaseBank ch).profiles = s.profiles := rfl
@[simp] theorem State.releaseBank_timeBase (s : State) (ch : Letter) : (s.releaseBank ch).timeBase = s.timeBase := rfl
@[simp] theorem State.releaseBank_sched (s : State) (ch : Letter) :
    (s.releaseBank ch).sched = { s.sched with dispatchCalled := true } := rfl
@[simp] theorem State.releaseBank_banks (s : State) (ch : Letter) :
    (s.releaseBank ch).banks = s.banks.map (Bank.releasedBy ch) := rfl
@[simp] theorem State.releaseBank_thresholds (s : State) (ch : Letter) : (s.releaseBank ch).thresholds = s.thresholds := rfl
@[simp] theorem State.releaseBank_channels (s : State) (ch : Letter) : (s.releaseBank ch).channels = s.channels := rfl
@[simp] theorem State.releaseBank_buffers (s : State) (ch : Letter) : (s.releaseBank ch).buffers = s.buffers := rfl
@[simp] theorem State.releaseBank_engine (s : State) (ch : Letter) : (s.releaseBank ch).engine = s.engine := rfl
@[simp] theorem State.releaseBank_table (s : State) (ch : Letter) : (s.releaseBank ch).table = s.table := rfl
@[simp] theorem State.releaseBank_inputs (s : State) (ch : Letter) : (s.releaseBank ch).inputs = s.inputs := rfl
@[simp] theorem State.releaseBank_now (s : State) (ch : Letter) : (s.releaseBank ch).now = s.now := rfl
@[simp] theorem State.releaseBank_draws (s : State) (ch : Letter) : (s.releaseBank ch).draws = s.draws := rfl
@[simp] theorem State.releaseBank_pending (s : State) (ch : Letter) : (s.releaseBank ch).pending = s.pending := rfl

/-! ### leaveClassQueue -/

@[simp] theorem State.leaveClassQueue_link (s : State) (id : Nat) : (s.leaveClassQueue id).link = s.link := rfl
@[simp] theorem State.leaveClassQueue_directory (s : State) (id : Nat) : (s.leaveClassQueue id).directory = s.directory := rfl
@[simp] theorem State.leaveClassQueue_profiles (s : State) (id : Nat) : (s.leaveClassQueue id).profiles = s.profiles := rfl
@[simp] theorem State.leaveClassQueue_timeBase (s : State) (id : Nat) : (s.leaveClassQueue id).timeBase = s.timeBase := rfl
@[simp] theorem State.leaveClassQueue_sched (s : State) (id : Nat) :
    (s.leaveClassQueue id).sched =
      { s.sched with classQueues := s.sched.classQueues.map (fun q => q.filter (fun i => i != id)) } := rfl
@[simp] theorem State.leaveClassQueue_banks (s : State) (id : Nat) : (s.leaveClassQueue id).banks = s.banks := rfl
@[simp] theorem State.leaveClassQueue_thresholds (s : State) (id : Nat) : (s.leaveClassQueue id).thresholds = s.thresholds := rfl
@[simp] theorem State.leaveClassQueue_channels (s : State) (id : Nat) : (s.leaveClassQueue id).channels = s.channels := rfl
@[simp] theorem State.leaveClassQueue_buffers (s : State) (id : Nat) : (s.leaveClassQueue id).buffers = s.buffers := rfl
@[simp] theorem State.leaveClassQueue_engine (s : State) (id : Nat) : (s.leaveClassQueue id).engine = s.engine := rfl
@[simp] theorem State.leaveClassQueue_table (s : State) (id : Nat) : (s.leaveClassQueue id).table = s.table := rfl
@[simp] theorem State.leaveClassQueue_inputs (s : State) (id : Nat) : (s.leaveClassQueue id).inputs = s.inputs := rfl
@[simp] theorem State.leaveClassQueue_now (s : State) (id : Nat) : (s.leaveClassQueue id).now = s.now := rfl
@[simp] theorem State.leaveClassQueue_draws (s : State) (id : Nat) : (s.leaveClassQueue id).draws = s.draws := rfl
@[simp] theorem State.leaveClassQueue_pending (s : State) (id : Nat) : (s.leaveClassQueue id).pending = s.pending := rfl

/-! ### leaveDemandQueue -/

@[simp] theorem State.leaveDemandQueue_link (s : State) (id : Nat) : (s.leaveDemandQueue id).link = s.link := rfl
@[simp] theorem State.leaveDemandQueue_directory (s : State) (id : Nat) : (s.leaveDemandQueue id).directory = s.directory := rfl
@[simp] theorem State.leaveDemandQueue_profiles (s : State) (id : Nat) : (s.leaveDemandQueue id).profiles = s.profiles := rfl
@[simp] theorem State.leaveDemandQueue_timeBase (s : State) (id : Nat) : (s.leaveDemandQueue id).timeBase = s.timeBase := rfl
@[simp] theorem State.leaveDemandQueue_sched (s : State) (id : Nat) :
    (s.leaveDemandQueue id).sched =
      { s.sched with demandQueue := s.sched.demandQueue.filter (fun d => d.span != id) } := rfl
@[simp] theorem State.leaveDemandQueue_banks (s : State) (id : Nat) : (s.leaveDemandQueue id).banks = s.banks := rfl
@[simp] theorem State.leaveDemandQueue_thresholds (s : State) (id : Nat) : (s.leaveDemandQueue id).thresholds = s.thresholds := rfl
@[simp] theorem State.leaveDemandQueue_channels (s : State) (id : Nat) : (s.leaveDemandQueue id).channels = s.channels := rfl
@[simp] theorem State.leaveDemandQueue_buffers (s : State) (id : Nat) : (s.leaveDemandQueue id).buffers = s.buffers := rfl
@[simp] theorem State.leaveDemandQueue_engine (s : State) (id : Nat) : (s.leaveDemandQueue id).engine = s.engine := rfl
@[simp] theorem State.leaveDemandQueue_table (s : State) (id : Nat) : (s.leaveDemandQueue id).table = s.table := rfl
@[simp] theorem State.leaveDemandQueue_inputs (s : State) (id : Nat) : (s.leaveDemandQueue id).inputs = s.inputs := rfl
@[simp] theorem State.leaveDemandQueue_now (s : State) (id : Nat) : (s.leaveDemandQueue id).now = s.now := rfl
@[simp] theorem State.leaveDemandQueue_draws (s : State) (id : Nat) : (s.leaveDemandQueue id).draws = s.draws := rfl
@[simp] theorem State.leaveDemandQueue_pending (s : State) (id : Nat) : (s.leaveDemandQueue id).pending = s.pending := rfl

/-! ### headOfClassQueue -/

@[simp] theorem State.headOfClassQueue_link (s : State) (c : Fin 4) (id : Nat) : (s.headOfClassQueue c id).link = s.link := rfl
@[simp] theorem State.headOfClassQueue_directory (s : State) (c : Fin 4) (id : Nat) : (s.headOfClassQueue c id).directory = s.directory := rfl
@[simp] theorem State.headOfClassQueue_profiles (s : State) (c : Fin 4) (id : Nat) : (s.headOfClassQueue c id).profiles = s.profiles := rfl
@[simp] theorem State.headOfClassQueue_timeBase (s : State) (c : Fin 4) (id : Nat) : (s.headOfClassQueue c id).timeBase = s.timeBase := rfl
@[simp] theorem State.headOfClassQueue_sched (s : State) (c : Fin 4) (id : Nat) :
    (s.headOfClassQueue c id).sched =
      { s.sched with classQueues := s.sched.classQueues.set c (id :: s.sched.classQueues.get c), dispatchCalled := true } := rfl
@[simp] theorem State.headOfClassQueue_banks (s : State) (c : Fin 4) (id : Nat) : (s.headOfClassQueue c id).banks = s.banks := rfl
@[simp] theorem State.headOfClassQueue_thresholds (s : State) (c : Fin 4) (id : Nat) : (s.headOfClassQueue c id).thresholds = s.thresholds := rfl
@[simp] theorem State.headOfClassQueue_channels (s : State) (c : Fin 4) (id : Nat) : (s.headOfClassQueue c id).channels = s.channels := rfl
@[simp] theorem State.headOfClassQueue_buffers (s : State) (c : Fin 4) (id : Nat) : (s.headOfClassQueue c id).buffers = s.buffers := rfl
@[simp] theorem State.headOfClassQueue_engine (s : State) (c : Fin 4) (id : Nat) : (s.headOfClassQueue c id).engine = s.engine := rfl
@[simp] theorem State.headOfClassQueue_table (s : State) (c : Fin 4) (id : Nat) : (s.headOfClassQueue c id).table = s.table := rfl
@[simp] theorem State.headOfClassQueue_inputs (s : State) (c : Fin 4) (id : Nat) : (s.headOfClassQueue c id).inputs = s.inputs := rfl
@[simp] theorem State.headOfClassQueue_now (s : State) (c : Fin 4) (id : Nat) : (s.headOfClassQueue c id).now = s.now := rfl
@[simp] theorem State.headOfClassQueue_draws (s : State) (c : Fin 4) (id : Nat) : (s.headOfClassQueue c id).draws = s.draws := rfl
@[simp] theorem State.headOfClassQueue_pending (s : State) (c : Fin 4) (id : Nat) : (s.headOfClassQueue c id).pending = s.pending := rfl

/-! ### tailOfDemandQueue -/

@[simp] theorem State.tailOfDemandQueue_link (s : State) (d : DemandJob) : (s.tailOfDemandQueue d).link = s.link := rfl
@[simp] theorem State.tailOfDemandQueue_directory (s : State) (d : DemandJob) : (s.tailOfDemandQueue d).directory = s.directory := rfl
@[simp] theorem State.tailOfDemandQueue_profiles (s : State) (d : DemandJob) : (s.tailOfDemandQueue d).profiles = s.profiles := rfl
@[simp] theorem State.tailOfDemandQueue_timeBase (s : State) (d : DemandJob) : (s.tailOfDemandQueue d).timeBase = s.timeBase := rfl
@[simp] theorem State.tailOfDemandQueue_sched (s : State) (d : DemandJob) :
    (s.tailOfDemandQueue d).sched =
      { s.sched with demandQueue := s.sched.demandQueue ++ [d], dispatchCalled := true } := rfl
@[simp] theorem State.tailOfDemandQueue_banks (s : State) (d : DemandJob) : (s.tailOfDemandQueue d).banks = s.banks := rfl
@[simp] theorem State.tailOfDemandQueue_thresholds (s : State) (d : DemandJob) : (s.tailOfDemandQueue d).thresholds = s.thresholds := rfl
@[simp] theorem State.tailOfDemandQueue_channels (s : State) (d : DemandJob) : (s.tailOfDemandQueue d).channels = s.channels := rfl
@[simp] theorem State.tailOfDemandQueue_buffers (s : State) (d : DemandJob) : (s.tailOfDemandQueue d).buffers = s.buffers := rfl
@[simp] theorem State.tailOfDemandQueue_engine (s : State) (d : DemandJob) : (s.tailOfDemandQueue d).engine = s.engine := rfl
@[simp] theorem State.tailOfDemandQueue_table (s : State) (d : DemandJob) : (s.tailOfDemandQueue d).table = s.table := rfl
@[simp] theorem State.tailOfDemandQueue_inputs (s : State) (d : DemandJob) : (s.tailOfDemandQueue d).inputs = s.inputs := rfl
@[simp] theorem State.tailOfDemandQueue_now (s : State) (d : DemandJob) : (s.tailOfDemandQueue d).now = s.now := rfl
@[simp] theorem State.tailOfDemandQueue_draws (s : State) (d : DemandJob) : (s.tailOfDemandQueue d).draws = s.draws := rfl
@[simp] theorem State.tailOfDemandQueue_pending (s : State) (d : DemandJob) : (s.tailOfDemandQueue d).pending = s.pending := rfl

/-! ### headOfDemandQueue -/

@[simp] theorem State.headOfDemandQueue_link (s : State) (d : DemandJob) : (s.headOfDemandQueue d).link = s.link := rfl
@[simp] theorem State.headOfDemandQueue_directory (s : State) (d : DemandJob) : (s.headOfDemandQueue d).directory = s.directory := rfl
@[simp] theorem State.headOfDemandQueue_profiles (s : State) (d : DemandJob) : (s.headOfDemandQueue d).profiles = s.profiles := rfl
@[simp] theorem State.headOfDemandQueue_timeBase (s : State) (d : DemandJob) : (s.headOfDemandQueue d).timeBase = s.timeBase := rfl
@[simp] theorem State.headOfDemandQueue_sched (s : State) (d : DemandJob) :
    (s.headOfDemandQueue d).sched =
      { s.sched with demandQueue := d :: s.sched.demandQueue, dispatchCalled := true } := rfl
@[simp] theorem State.headOfDemandQueue_banks (s : State) (d : DemandJob) : (s.headOfDemandQueue d).banks = s.banks := rfl
@[simp] theorem State.headOfDemandQueue_thresholds (s : State) (d : DemandJob) : (s.headOfDemandQueue d).thresholds = s.thresholds := rfl
@[simp] theorem State.headOfDemandQueue_channels (s : State) (d : DemandJob) : (s.headOfDemandQueue d).channels = s.channels := rfl
@[simp] theorem State.headOfDemandQueue_buffers (s : State) (d : DemandJob) : (s.headOfDemandQueue d).buffers = s.buffers := rfl
@[simp] theorem State.headOfDemandQueue_engine (s : State) (d : DemandJob) : (s.headOfDemandQueue d).engine = s.engine := rfl
@[simp] theorem State.headOfDemandQueue_table (s : State) (d : DemandJob) : (s.headOfDemandQueue d).table = s.table := rfl
@[simp] theorem State.headOfDemandQueue_inputs (s : State) (d : DemandJob) : (s.headOfDemandQueue d).inputs = s.inputs := rfl
@[simp] theorem State.headOfDemandQueue_now (s : State) (d : DemandJob) : (s.headOfDemandQueue d).now = s.now := rfl
@[simp] theorem State.headOfDemandQueue_draws (s : State) (d : DemandJob) : (s.headOfDemandQueue d).draws = s.draws := rfl
@[simp] theorem State.headOfDemandQueue_pending (s : State) (d : DemandJob) : (s.headOfDemandQueue d).pending = s.pending := rfl

/-! ### discardPending -/

@[simp] theorem State.discardPending_link (s : State) :
    s.discardPending.link = s.link.discard := rfl
@[simp] theorem State.discardPending_directory (s : State) : s.discardPending.directory = s.directory := rfl
@[simp] theorem State.discardPending_profiles (s : State) : s.discardPending.profiles = s.profiles := rfl
@[simp] theorem State.discardPending_timeBase (s : State) : s.discardPending.timeBase = s.timeBase := rfl
@[simp] theorem State.discardPending_sched (s : State) : s.discardPending.sched = s.sched := rfl
@[simp] theorem State.discardPending_banks (s : State) : s.discardPending.banks = s.banks := rfl
@[simp] theorem State.discardPending_thresholds (s : State) : s.discardPending.thresholds = s.thresholds := rfl
@[simp] theorem State.discardPending_channels (s : State) : s.discardPending.channels = s.channels := rfl
@[simp] theorem State.discardPending_buffers (s : State) : s.discardPending.buffers = s.buffers := rfl
@[simp] theorem State.discardPending_engine (s : State) : s.discardPending.engine = s.engine := rfl
@[simp] theorem State.discardPending_table (s : State) : s.discardPending.table = s.table := rfl
@[simp] theorem State.discardPending_inputs (s : State) : s.discardPending.inputs = s.inputs := rfl
@[simp] theorem State.discardPending_now (s : State) : s.discardPending.now = s.now := rfl
@[simp] theorem State.discardPending_draws (s : State) : s.discardPending.draws = s.draws := rfl
@[simp] theorem State.discardPending_pending (s : State) : s.discardPending.pending = s.pending := rfl

/-! ### respond -/

@[simp] theorem State.respond_link (s : State) (n : Nat) (r : Reply) :
    (s.respond n r).link = s.link.withResponse r s.attn n := rfl
@[simp] theorem State.respond_directory (s : State) (n : Nat) (r : Reply) : (s.respond n r).directory = s.directory := rfl
@[simp] theorem State.respond_profiles (s : State) (n : Nat) (r : Reply) : (s.respond n r).profiles = s.profiles := rfl
@[simp] theorem State.respond_timeBase (s : State) (n : Nat) (r : Reply) : (s.respond n r).timeBase = s.timeBase := rfl
@[simp] theorem State.respond_sched (s : State) (n : Nat) (r : Reply) : (s.respond n r).sched = s.sched := rfl
@[simp] theorem State.respond_banks (s : State) (n : Nat) (r : Reply) : (s.respond n r).banks = s.banks := rfl
@[simp] theorem State.respond_thresholds (s : State) (n : Nat) (r : Reply) : (s.respond n r).thresholds = s.thresholds := rfl
@[simp] theorem State.respond_channels (s : State) (n : Nat) (r : Reply) : (s.respond n r).channels = s.channels := rfl
@[simp] theorem State.respond_buffers (s : State) (n : Nat) (r : Reply) : (s.respond n r).buffers = s.buffers := rfl
@[simp] theorem State.respond_engine (s : State) (n : Nat) (r : Reply) : (s.respond n r).engine = s.engine := rfl
@[simp] theorem State.respond_table (s : State) (n : Nat) (r : Reply) : (s.respond n r).table = s.table := rfl
@[simp] theorem State.respond_inputs (s : State) (n : Nat) (r : Reply) : (s.respond n r).inputs = s.inputs := rfl
@[simp] theorem State.respond_now (s : State) (n : Nat) (r : Reply) : (s.respond n r).now = s.now := rfl
@[simp] theorem State.respond_draws (s : State) (n : Nat) (r : Reply) : (s.respond n r).draws = s.draws := rfl
@[simp] theorem State.respond_pending (s : State) (n : Nat) (r : Reply) : (s.respond n r).pending = s.pending := rfl

/-! ### ignorePeriod -/

@[simp] theorem State.ignorePeriod_link (s : State) (n : Nat) :
    (s.ignorePeriod n).link = { s.link with dataOut := idleBytes n } := rfl
@[simp] theorem State.ignorePeriod_directory (s : State) (n : Nat) : (s.ignorePeriod n).directory = s.directory := rfl
@[simp] theorem State.ignorePeriod_profiles (s : State) (n : Nat) : (s.ignorePeriod n).profiles = s.profiles := rfl
@[simp] theorem State.ignorePeriod_timeBase (s : State) (n : Nat) : (s.ignorePeriod n).timeBase = s.timeBase := rfl
@[simp] theorem State.ignorePeriod_sched (s : State) (n : Nat) : (s.ignorePeriod n).sched = s.sched := rfl
@[simp] theorem State.ignorePeriod_banks (s : State) (n : Nat) : (s.ignorePeriod n).banks = s.banks := rfl
@[simp] theorem State.ignorePeriod_thresholds (s : State) (n : Nat) : (s.ignorePeriod n).thresholds = s.thresholds := rfl
@[simp] theorem State.ignorePeriod_channels (s : State) (n : Nat) : (s.ignorePeriod n).channels = s.channels := rfl
@[simp] theorem State.ignorePeriod_buffers (s : State) (n : Nat) : (s.ignorePeriod n).buffers = s.buffers := rfl
@[simp] theorem State.ignorePeriod_engine (s : State) (n : Nat) : (s.ignorePeriod n).engine = s.engine := rfl
@[simp] theorem State.ignorePeriod_table (s : State) (n : Nat) : (s.ignorePeriod n).table = s.table := rfl
@[simp] theorem State.ignorePeriod_inputs (s : State) (n : Nat) : (s.ignorePeriod n).inputs = s.inputs := rfl
@[simp] theorem State.ignorePeriod_now (s : State) (n : Nat) : (s.ignorePeriod n).now = s.now := rfl
@[simp] theorem State.ignorePeriod_draws (s : State) (n : Nat) : (s.ignorePeriod n).draws = s.draws := rfl
@[simp] theorem State.ignorePeriod_pending (s : State) (n : Nat) : (s.ignorePeriod n).pending = s.pending := rfl

/-! ### missAll -/

@[simp] theorem State.missAll_link (s : State) (ids : List Nat) : (s.missAll ids).link = s.link := rfl
@[simp] theorem State.missAll_directory (s : State) (ids : List Nat) :
    (s.missAll ids).directory = s.directory.map (Entry.missIfIn ids) := rfl
@[simp] theorem State.missAll_profiles (s : State) (ids : List Nat) : (s.missAll ids).profiles = s.profiles := rfl
@[simp] theorem State.missAll_timeBase (s : State) (ids : List Nat) : (s.missAll ids).timeBase = s.timeBase := rfl
@[simp] theorem State.missAll_sched (s : State) (ids : List Nat) : (s.missAll ids).sched = s.sched := rfl
@[simp] theorem State.missAll_banks (s : State) (ids : List Nat) : (s.missAll ids).banks = s.banks := rfl
@[simp] theorem State.missAll_thresholds (s : State) (ids : List Nat) : (s.missAll ids).thresholds = s.thresholds := rfl
@[simp] theorem State.missAll_channels (s : State) (ids : List Nat) : (s.missAll ids).channels = s.channels := rfl
@[simp] theorem State.missAll_buffers (s : State) (ids : List Nat) : (s.missAll ids).buffers = s.buffers := rfl
@[simp] theorem State.missAll_engine (s : State) (ids : List Nat) : (s.missAll ids).engine = s.engine := rfl
@[simp] theorem State.missAll_table (s : State) (ids : List Nat) : (s.missAll ids).table = s.table := rfl
@[simp] theorem State.missAll_inputs (s : State) (ids : List Nat) : (s.missAll ids).inputs = s.inputs := rfl
@[simp] theorem State.missAll_now (s : State) (ids : List Nat) : (s.missAll ids).now = s.now := rfl
@[simp] theorem State.missAll_draws (s : State) (ids : List Nat) : (s.missAll ids).draws = s.draws := rfl
@[simp] theorem State.missAll_pending (s : State) (ids : List Nat) : (s.missAll ids).pending = s.pending := rfl

/-! ### dropVerify -/

@[simp] theorem State.dropVerify_link (s : State) (ch : Letter) : (s.dropVerify ch).link = s.link := rfl
@[simp] theorem State.dropVerify_directory (s : State) (ch : Letter) : (s.dropVerify ch).directory = s.directory := rfl
@[simp] theorem State.dropVerify_profiles (s : State) (ch : Letter) : (s.dropVerify ch).profiles = s.profiles := rfl
@[simp] theorem State.dropVerify_timeBase (s : State) (ch : Letter) : (s.dropVerify ch).timeBase = s.timeBase := rfl
@[simp] theorem State.dropVerify_sched (s : State) (ch : Letter) :
    (s.dropVerify ch).sched = { s.sched with verifyPlaces := s.sched.verifyPlaces.set ch false } := rfl
@[simp] theorem State.dropVerify_banks (s : State) (ch : Letter) : (s.dropVerify ch).banks = s.banks := rfl
@[simp] theorem State.dropVerify_thresholds (s : State) (ch : Letter) : (s.dropVerify ch).thresholds = s.thresholds := rfl
@[simp] theorem State.dropVerify_channels (s : State) (ch : Letter) : (s.dropVerify ch).channels = s.channels := rfl
@[simp] theorem State.dropVerify_buffers (s : State) (ch : Letter) : (s.dropVerify ch).buffers = s.buffers := rfl
@[simp] theorem State.dropVerify_engine (s : State) (ch : Letter) : (s.dropVerify ch).engine = s.engine := rfl
@[simp] theorem State.dropVerify_table (s : State) (ch : Letter) : (s.dropVerify ch).table = s.table := rfl
@[simp] theorem State.dropVerify_inputs (s : State) (ch : Letter) : (s.dropVerify ch).inputs = s.inputs := rfl
@[simp] theorem State.dropVerify_now (s : State) (ch : Letter) : (s.dropVerify ch).now = s.now := rfl
@[simp] theorem State.dropVerify_draws (s : State) (ch : Letter) : (s.dropVerify ch).draws = s.draws := rfl
@[simp] theorem State.dropVerify_pending (s : State) (ch : Letter) : (s.dropVerify ch).pending = s.pending := rfl

/-! ### acknowledge -/

@[simp] theorem State.acknowledge_link (s : State) (tag : Nat) : (s.acknowledge tag).link = s.link := rfl
@[simp] theorem State.acknowledge_directory (s : State) (tag : Nat) : (s.acknowledge tag).directory = s.directory := rfl
@[simp] theorem State.acknowledge_profiles (s : State) (tag : Nat) : (s.acknowledge tag).profiles = s.profiles := rfl
@[simp] theorem State.acknowledge_timeBase (s : State) (tag : Nat) : (s.acknowledge tag).timeBase = s.timeBase := rfl
@[simp] theorem State.acknowledge_sched (s : State) (tag : Nat) : (s.acknowledge tag).sched = s.sched := rfl
@[simp] theorem State.acknowledge_banks (s : State) (tag : Nat) : (s.acknowledge tag).banks = s.banks := rfl
@[simp] theorem State.acknowledge_thresholds (s : State) (tag : Nat) : (s.acknowledge tag).thresholds = s.thresholds := rfl
@[simp] theorem State.acknowledge_channels (s : State) (tag : Nat) : (s.acknowledge tag).channels = s.channels := rfl
@[simp] theorem State.acknowledge_buffers (s : State) (tag : Nat) : (s.acknowledge tag).buffers = s.buffers := rfl
@[simp] theorem State.acknowledge_engine (s : State) (tag : Nat) : (s.acknowledge tag).engine = s.engine := rfl
@[simp] theorem State.acknowledge_inputs (s : State) (tag : Nat) : (s.acknowledge tag).inputs = s.inputs := rfl
@[simp] theorem State.acknowledge_now (s : State) (tag : Nat) : (s.acknowledge tag).now = s.now := rfl
@[simp] theorem State.acknowledge_draws (s : State) (tag : Nat) : (s.acknowledge tag).draws = s.draws := rfl
@[simp] theorem State.acknowledge_pending (s : State) (tag : Nat) : (s.acknowledge tag).pending = s.pending := rfl

/-! ### freeCondition -/

@[simp] theorem State.freeCondition_link (s : State) (tag : Nat) : (s.freeCondition tag).link = s.link := rfl
@[simp] theorem State.freeCondition_directory (s : State) (tag : Nat) : (s.freeCondition tag).directory = s.directory := rfl
@[simp] theorem State.freeCondition_profiles (s : State) (tag : Nat) : (s.freeCondition tag).profiles = s.profiles := rfl
@[simp] theorem State.freeCondition_timeBase (s : State) (tag : Nat) : (s.freeCondition tag).timeBase = s.timeBase := rfl
@[simp] theorem State.freeCondition_sched (s : State) (tag : Nat) : (s.freeCondition tag).sched = s.sched := rfl
@[simp] theorem State.freeCondition_banks (s : State) (tag : Nat) : (s.freeCondition tag).banks = s.banks := rfl
@[simp] theorem State.freeCondition_thresholds (s : State) (tag : Nat) : (s.freeCondition tag).thresholds = s.thresholds := rfl
@[simp] theorem State.freeCondition_channels (s : State) (tag : Nat) : (s.freeCondition tag).channels = s.channels := rfl
@[simp] theorem State.freeCondition_buffers (s : State) (tag : Nat) : (s.freeCondition tag).buffers = s.buffers := rfl
@[simp] theorem State.freeCondition_engine (s : State) (tag : Nat) : (s.freeCondition tag).engine = s.engine := rfl
@[simp] theorem State.freeCondition_inputs (s : State) (tag : Nat) : (s.freeCondition tag).inputs = s.inputs := rfl
@[simp] theorem State.freeCondition_now (s : State) (tag : Nat) : (s.freeCondition tag).now = s.now := rfl
@[simp] theorem State.freeCondition_draws (s : State) (tag : Nat) : (s.freeCondition tag).draws = s.draws := rfl
@[simp] theorem State.freeCondition_pending (s : State) (tag : Nat) : (s.freeCondition tag).pending = s.pending := rfl

/-! ### markCancelled -/

@[simp] theorem State.markCancelled_link (s : State) (a : Analysis) : (s.markCancelled a).link = s.link := rfl
@[simp] theorem State.markCancelled_directory (s : State) (a : Analysis) : (s.markCancelled a).directory = s.directory := rfl
@[simp] theorem State.markCancelled_profiles (s : State) (a : Analysis) : (s.markCancelled a).profiles = s.profiles := rfl
@[simp] theorem State.markCancelled_timeBase (s : State) (a : Analysis) : (s.markCancelled a).timeBase = s.timeBase := rfl
@[simp] theorem State.markCancelled_sched (s : State) (a : Analysis) : (s.markCancelled a).sched = s.sched := rfl
@[simp] theorem State.markCancelled_banks (s : State) (a : Analysis) : (s.markCancelled a).banks = s.banks := rfl
@[simp] theorem State.markCancelled_thresholds (s : State) (a : Analysis) : (s.markCancelled a).thresholds = s.thresholds := rfl
@[simp] theorem State.markCancelled_channels (s : State) (a : Analysis) : (s.markCancelled a).channels = s.channels := rfl
@[simp] theorem State.markCancelled_buffers (s : State) (a : Analysis) : (s.markCancelled a).buffers = s.buffers := rfl
@[simp] theorem State.markCancelled_engine (s : State) (a : Analysis) :
    (s.markCancelled a).engine =
      { s.engine with current := some { a with flight := { a.flight with cancelled := true } } } := rfl
@[simp] theorem State.markCancelled_table (s : State) (a : Analysis) : (s.markCancelled a).table = s.table := rfl
@[simp] theorem State.markCancelled_inputs (s : State) (a : Analysis) : (s.markCancelled a).inputs = s.inputs := rfl
@[simp] theorem State.markCancelled_now (s : State) (a : Analysis) : (s.markCancelled a).now = s.now := rfl
@[simp] theorem State.markCancelled_draws (s : State) (a : Analysis) : (s.markCancelled a).draws = s.draws := rfl
@[simp] theorem State.markCancelled_pending (s : State) (a : Analysis) : (s.markCancelled a).pending = s.pending := rfl

/-! ### drawn -/

@[simp] theorem State.drawn_link (s : State) : s.drawn.link = s.link := rfl
@[simp] theorem State.drawn_directory (s : State) : s.drawn.directory = s.directory := rfl
@[simp] theorem State.drawn_profiles (s : State) : s.drawn.profiles = s.profiles := rfl
@[simp] theorem State.drawn_timeBase (s : State) : s.drawn.timeBase = s.timeBase := rfl
@[simp] theorem State.drawn_sched (s : State) : s.drawn.sched = s.sched := rfl
@[simp] theorem State.drawn_banks (s : State) : s.drawn.banks = s.banks := rfl
@[simp] theorem State.drawn_thresholds (s : State) : s.drawn.thresholds = s.thresholds := rfl
@[simp] theorem State.drawn_channels (s : State) : s.drawn.channels = s.channels := rfl
@[simp] theorem State.drawn_buffers (s : State) : s.drawn.buffers = s.buffers := rfl
@[simp] theorem State.drawn_engine (s : State) : s.drawn.engine = s.engine := rfl
@[simp] theorem State.drawn_table (s : State) : s.drawn.table = s.table := rfl
@[simp] theorem State.drawn_inputs (s : State) : s.drawn.inputs = s.inputs := rfl
@[simp] theorem State.drawn_now (s : State) : s.drawn.now = s.now := rfl
@[simp] theorem State.drawn_draws (s : State) :
    s.drawn.draws = s.draws + 1 := rfl
@[simp] theorem State.drawn_pending (s : State) : s.drawn.pending = s.pending := rfl

/-! ### withPending -/

@[simp] theorem State.withPending_link (s : State) (l : List Instr) : (s.withPending l).link = s.link := rfl
@[simp] theorem State.withPending_directory (s : State) (l : List Instr) : (s.withPending l).directory = s.directory := rfl
@[simp] theorem State.withPending_profiles (s : State) (l : List Instr) : (s.withPending l).profiles = s.profiles := rfl
@[simp] theorem State.withPending_timeBase (s : State) (l : List Instr) : (s.withPending l).timeBase = s.timeBase := rfl
@[simp] theorem State.withPending_sched (s : State) (l : List Instr) : (s.withPending l).sched = s.sched := rfl
@[simp] theorem State.withPending_banks (s : State) (l : List Instr) : (s.withPending l).banks = s.banks := rfl
@[simp] theorem State.withPending_thresholds (s : State) (l : List Instr) : (s.withPending l).thresholds = s.thresholds := rfl
@[simp] theorem State.withPending_channels (s : State) (l : List Instr) : (s.withPending l).channels = s.channels := rfl
@[simp] theorem State.withPending_buffers (s : State) (l : List Instr) : (s.withPending l).buffers = s.buffers := rfl
@[simp] theorem State.withPending_engine (s : State) (l : List Instr) : (s.withPending l).engine = s.engine := rfl
@[simp] theorem State.withPending_table (s : State) (l : List Instr) : (s.withPending l).table = s.table := rfl
@[simp] theorem State.withPending_inputs (s : State) (l : List Instr) : (s.withPending l).inputs = s.inputs := rfl
@[simp] theorem State.withPending_now (s : State) (l : List Instr) : (s.withPending l).now = s.now := rfl
@[simp] theorem State.withPending_draws (s : State) (l : List Instr) : (s.withPending l).draws = s.draws := rfl
@[simp] theorem State.withPending_pending (s : State) (l : List Instr) :
    (s.withPending l).pending = l := rfl

/-! ### tick -/

@[simp] theorem State.tick_link (s : State) : s.tick.link = s.link := rfl
@[simp] theorem State.tick_directory (s : State) : s.tick.directory = s.directory := rfl
@[simp] theorem State.tick_profiles (s : State) : s.tick.profiles = s.profiles := rfl
@[simp] theorem State.tick_timeBase (s : State) : s.tick.timeBase = s.timeBase := rfl
@[simp] theorem State.tick_sched (s : State) : s.tick.sched = s.sched := rfl
@[simp] theorem State.tick_banks (s : State) : s.tick.banks = s.banks := rfl
@[simp] theorem State.tick_thresholds (s : State) : s.tick.thresholds = s.thresholds := rfl
@[simp] theorem State.tick_channels (s : State) : s.tick.channels = s.channels := rfl
@[simp] theorem State.tick_buffers (s : State) : s.tick.buffers = s.buffers := rfl
@[simp] theorem State.tick_engine (s : State) : s.tick.engine = s.engine := rfl
@[simp] theorem State.tick_table (s : State) : s.tick.table = s.table := rfl
@[simp] theorem State.tick_inputs (s : State) : s.tick.inputs = s.inputs := rfl
@[simp] theorem State.tick_now (s : State) :
    s.tick.now = s.now + 1 := rfl
@[simp] theorem State.tick_draws (s : State) : s.tick.draws = s.draws := rfl
@[simp] theorem State.tick_pending (s : State) : s.tick.pending = s.pending := rfl

/-! ### applyResult -/

@[simp] theorem State.applyResult_link (s : State) (r : Result) : (s.applyResult r).link = s.link := rfl
@[simp] theorem State.applyResult_directory (s : State) (r : Result) :
    (s.applyResult r).directory =
      s.directory.map (Entry.modify r.span (SpanRecord.dropFindings (s.table.apply r).dropped)) := rfl
@[simp] theorem State.applyResult_profiles (s : State) (r : Result) : (s.applyResult r).profiles = s.profiles := rfl
@[simp] theorem State.applyResult_timeBase (s : State) (r : Result) : (s.applyResult r).timeBase = s.timeBase := rfl
@[simp] theorem State.applyResult_sched (s : State) (r : Result) : (s.applyResult r).sched = s.sched := rfl
@[simp] theorem State.applyResult_banks (s : State) (r : Result) : (s.applyResult r).banks = s.banks := rfl
@[simp] theorem State.applyResult_thresholds (s : State) (r : Result) : (s.applyResult r).thresholds = s.thresholds := rfl
@[simp] theorem State.applyResult_channels (s : State) (r : Result) : (s.applyResult r).channels = s.channels := rfl
@[simp] theorem State.applyResult_buffers (s : State) (r : Result) : (s.applyResult r).buffers = s.buffers := rfl
@[simp] theorem State.applyResult_engine (s : State) (r : Result) : (s.applyResult r).engine = s.engine := rfl
@[simp] theorem State.applyResult_table (s : State) (r : Result) :
    (s.applyResult r).table = (s.table.apply r).table := rfl
@[simp] theorem State.applyResult_inputs (s : State) (r : Result) : (s.applyResult r).inputs = s.inputs := rfl
@[simp] theorem State.applyResult_now (s : State) (r : Result) : (s.applyResult r).now = s.now := rfl
@[simp] theorem State.applyResult_draws (s : State) (r : Result) : (s.applyResult r).draws = s.draws := rfl
@[simp] theorem State.applyResult_pending (s : State) (r : Result) : (s.applyResult r).pending = s.pending := rfl

end Sys2Proof.Machine
end

