-- ==== Sys2Proof/Laws/Frame.lean ====
section
/-! SUPPORT. What each shared operation can change: one frame lemma for each, cited in place of unfolding it. -/

namespace Sys2Proof.Machine

theorem KeepsBut.refl (l : List Part) (s : State) : KeepsBut l s s := by
  refine ⟨fun p _ => ?_⟩
  cases p <;> rfl

theorem KeepsBut.trans {l : List Part} {s t u : State} (h : KeepsBut l s t) (k : KeepsBut l t u) : KeepsBut l s u := by
  refine ⟨fun p hp => ?_⟩
  have a := h.same p hp
  have b := k.same p hp
  cases p <;> exact Eq.trans b a

theorem KeepsBut.mono {l m : List Part} {s t : State} (h : KeepsBut l s t) (hm : ∀ p ∈ l, p ∈ m) : KeepsBut m s t :=
  ⟨fun p hp => h.same p (fun q => hp (hm p q))⟩

theorem endWithOutcome_frame (s : State) (w : Work) (o : LastOutcome) :
    KeepsBut [.directory] s (s.endWithOutcome w o) := by
  refine ⟨fun p hp => ?_⟩
  rcases w with ⟨k, id, v⟩ | ⟨ch, c⟩ <;> [cases k; skip] <;> cases p <;> first | rfl | simp at hp

theorem setBank_frame (s : State) (l : Letter) (b : Bank) : KeepsBut [.banks] s (s.setBank l b) := by
  refine ⟨fun p hp => ?_⟩
  cases p <;> first | rfl | simp at hp

theorem setChannel_frame (s : State) (l : Letter) (c : Channel) : KeepsBut [.channels] s (s.setChannel l c) := by
  refine ⟨fun p hp => ?_⟩
  cases p <;> first | rfl | simp at hp

theorem setActivity_frame (s : State) (l : Letter) (a : Activity) : KeepsBut [.channels] s (s.setActivity l a) :=
  setChannel_frame s l _

theorem modifySpan_frame (s : State) (id : Nat) (f : SpanRecord → SpanRecord) :
    KeepsBut [.directory] s (s.modifySpan id f) := by
  refine ⟨fun p hp => ?_⟩
  cases p <;> first | rfl | simp at hp

theorem callDispatch_frame (s : State) : KeepsBut [.sched] s s.callDispatch := by
  refine ⟨fun p hp => ?_⟩
  cases p <;> first | rfl | simp at hp

theorem reach_frame (s : State) (due : Nat) : KeepsBut [.now] s (s.reach due) := by
  refine ⟨fun p hp => ?_⟩
  cases p <;> first | rfl | simp at hp

theorem becomeEmpty_frame (s : State) (id : Nat) : KeepsBut [.directory, .table] s (s.becomeEmpty id) := by
  refine ⟨fun p hp => ?_⟩
  cases p <;> first | rfl | simp at hp

theorem dropFlight_frame (s : State) (ch : Letter) (f : Flight) (rest : Activity) :
    KeepsBut [.buffers, .sched, .banks, .channels] s (s.dropFlight ch f rest) := by
  refine ⟨fun p hp => ?_⟩
  cases p <;> first | rfl | simp at hp

theorem abortChannel_frame (s : State) (ch : Letter) :
    KeepsBut [.buffers, .sched, .banks, .channels] s (s.abortChannel ch) := by
  unfold State.abortChannel
  split
  · exact dropFlight_frame ..
  · exact .refl ..
  · exact .refl ..

theorem settle_frame (s : State) (l : Letter) (sense : Option Nat) :
    KeepsBut [.buffers, .sched, .banks, .channels, .directory] s (s.settle l sense) := by
  have bank (t : State) (b : Bank) : KeepsBut [.buffers, .sched, .banks, .channels, .directory] t (t.setBank l b) := by
    refine ⟨fun p hp => ?_⟩
    cases p <;> first | rfl | simp at hp
  unfold State.settle
  dsimp only
  split
  · split <;> exact bank ..
  · split
    · split
      · exact KeepsBut.trans (bank s _) ((setActivity_frame ..).mono (by decide))
      · exact ((bank s _).trans ((endWithOutcome_frame ..).mono (by decide))).trans
          ((dropFlight_frame ..).mono (by decide))
    · split <;> exact bank ..
    · split <;> exact bank ..

theorem takeBank_frame (s : State) (ch l : Letter) (position : Nat) (sense : Option Nat) :
    KeepsBut [.buffers, .sched, .banks, .channels, .directory] s (s.takeBank ch l position sense) := by
  have bank (t : State) (b : Bank) : KeepsBut [.buffers, .sched, .banks, .channels, .directory] t (t.setBank l b) := by
    refine ⟨fun p hp => ?_⟩
    cases p <;> first | rfl | simp at hp
  unfold State.takeBank
  dsimp only
  split
  · split
    · exact (bank ..).trans (settle_frame ..)
    · exact bank ..
  · split <;> exact bank ..

theorem takeBuffers_frame (s : State) (j : JobId) (plan : Plan) : KeepsBut [.buffers] s (s.takeBuffers j plan) := by
  unfold State.takeBuffers
  split <;> refine ⟨fun p hp => ?_⟩ <;> cases p <;> first | rfl | simp at hp

theorem unqueue_frame (s : State) (j : Job) : KeepsBut [.sched] s (s.unqueue j) := by
  refine ⟨fun p hp => ?_⟩
  rcases j with ⟨k, id⟩ | ch <;> [cases k; skip] <;> cases p <;> first | rfl | simp at hp

theorem takeHead_frame (s : State) : KeepsBut [.engine] s s.takeHead := by
  unfold State.takeHead
  split
  · split
    · refine ⟨fun p hp => ?_⟩
      cases p <;> first | rfl | simp at hp
    · exact .refl ..
  · exact .refl ..

theorem handOn_frame (s : State) (ch : Letter) (f : Flight) :
    KeepsBut [.channels, .banks, .sched, .engine] s (s.handOn ch f) := by
  unfold State.handOn
  refine KeepsBut.trans ?_ ((takeHead_frame _).mono (by decide))
  refine ⟨fun p hp => ?_⟩
  cases p <;> first | rfl | simp at hp

theorem leaveAnalysisQueue_frame (s : State) (j : JobId) :
    KeepsBut [.buffers, .sched, .engine] s (s.leaveAnalysisQueue j) := by
  unfold State.leaveAnalysisQueue
  refine KeepsBut.trans ?_ ((takeHead_frame _).mono (by decide))
  refine ⟨fun p hp => ?_⟩
  cases p <;> first | rfl | simp at hp

theorem removeJob_frame (s : State) (id : Nat) (place : JobPlace) :
    KeepsBut [.buffers, .sched, .banks, .channels, .engine] s (s.removeJob id place) := by
  cases place with
  | classQueue c => refine ⟨fun p hp => ?_⟩; cases p <;> first | rfl | simp at hp
  | demandQueue l => refine ⟨fun p hp => ?_⟩; cases p <;> first | rfl | simp at hp
  | channel ch f => exact (abortChannel_frame s ch).mono (by decide)
  | waiting f => exact (leaveAnalysisQueue_frame s _).mono (by decide)
  | analysing a => exact .refl ..

theorem dispatch_frame (s : State) (ch : Letter) (j : Job) (senses : Pair (Option Nat)) :
    KeepsBut [.buffers, .sched, .banks, .channels, .directory] s (s.dispatch ch j senses) := by
  unfold State.dispatch
  split
  · exact .refl ..
  · exact ((((unqueue_frame s j).mono (by decide)).trans ((takeBuffers_frame ..).mono (by decide))).trans
      ((setActivity_frame ..).mono (by decide))).trans (takeBank_frame ..)

theorem considerChannel_frame (s : State) (senses : Pair (Option Nat)) (ch : Letter) :
    KeepsBut [.buffers, .sched, .banks, .channels, .directory] s (s.considerChannel senses ch) := by
  unfold State.considerChannel
  dsimp only
  split
  · split
    · refine KeepsBut.trans ?_ (dispatch_frame ..)
      refine ⟨fun p hp => ?_⟩
      cases p <;> first | rfl | simp at hp
    · exact .refl ..
  · exact .refl ..

theorem requeueScheduled_frame (s : State) (c : Fin 4) (id : Nat) : KeepsBut [.sched] s (s.requeueScheduled c id) := by
  refine ⟨fun p hp => ?_⟩
  cases p <;> first | rfl | simp at hp

theorem preemptFor_frame (senses : Pair (Option Nat)) (s : State) (demand : Nat) :
    KeepsBut [.buffers, .sched, .banks, .channels, .directory] s (State.preemptFor senses s demand) := by
  unfold State.preemptFor
  split
  · exact .refl ..
  · exact (((abortChannel_frame s _).mono (by decide)).trans ((requeueScheduled_frame ..).mono (by decide))).trans
      (dispatch_frame ..)

theorem preempt_frame (s : State) (senses : Pair (Option Nat)) :
    KeepsBut [.buffers, .sched, .banks, .channels, .directory] s (s.preempt senses) := by
  have fold (l : List Nat) (t : State) :
      KeepsBut [.buffers, .sched, .banks, .channels, .directory] t (l.foldl (State.preemptFor senses) t) := by
    induction l generalizing t with
    | nil => exact .refl ..
    | cons d ds ih => exact (preemptFor_frame senses t d).trans (ih _)
  unfold State.preempt
  split
  · exact fold _ s
  · exact .refl ..

theorem dispatchPass_frame (s : State) (senses : Pair (Option Nat)) :
    KeepsBut [.buffers, .sched, .banks, .channels, .directory, .now] s (s.dispatchPass senses) := by
  unfold State.dispatchPass
  have h0 : KeepsBut [.buffers, .sched, .banks, .channels, .directory] s
      { s with sched := { s.sched with dispatchCalled := false } } := by
    refine ⟨fun p hp => ?_⟩
    cases p <;> first | rfl | simp at hp
  have h := h0.trans ((considerChannel_frame _ senses .A).trans
    ((considerChannel_frame _ senses .B).trans (preempt_frame _ senses)))
  refine (h.mono (by decide)).trans ?_
  refine ⟨fun p hp => ?_⟩
  cases p <;> first | rfl | simp at hp

theorem free1310_frame (s : State) (j : JobId) : KeepsBut [.buffers, .sched] s (s.free1310 j) := by
  refine ⟨fun p hp => ?_⟩
  cases p <;> first | rfl | simp at hp

theorem fillBuffer_frame (s : State) (j : JobId) (r : Role) (t : Trace) : KeepsBut [.buffers] s (s.fillBuffer j r t) := by
  refine ⟨fun p hp => ?_⟩
  cases p <;> first | rfl | simp at hp

theorem cut1310_frame (s : State) (ch : Letter) (f : Flight) :
    KeepsBut [.buffers, .sched, .banks, .channels, .engine] s (s.cut1310 ch f) := by
  unfold State.cut1310
  split
  · exact ((fillBuffer_frame ..).mono (by decide)).trans ((handOn_frame ..).mono (by decide))
  · exact ((free1310_frame ..).mono (by decide)).trans ((handOn_frame ..).mono (by decide))

theorem closeAtChannel_frame (s : State) (ch : Letter) :
    KeepsBut [.buffers, .sched, .banks, .channels, .engine] s (s.closeAtChannel ch) := by
  have drop (stage : Stage) (f : Flight) :
      KeepsBut [.buffers, .sched, .banks, .channels, .engine] s (s.drop1310 ch stage f) := by
    refine ⟨fun p hp => ?_⟩
    cases p <;> first | rfl | simp at hp
  unfold State.closeAtChannel
  split
  · exact .refl ..
  · exact .refl ..
  · exact cut1310_frame ..
  all_goals
    split
    · exact drop ..
    · exact .refl ..

theorem eitherOrder_frame {l : List Part} (s : State) (f : State → Letter → State) (hl : .draws ∈ l)
    (h : ∀ t ch, KeepsBut l t (f t ch)) : KeepsBut l s (s.eitherOrder f) := by
  have hd : KeepsBut l s s.drawn := by
    refine ⟨fun p hp => ?_⟩
    cases p <;> first | rfl | exact absurd hl hp
  unfold State.eitherOrder
  split <;> exact hd.trans ((h ..).trans (h ..))

theorem closeAtChannels_frame (s : State) :
    KeepsBut [.buffers, .sched, .banks, .channels, .engine, .draws] s s.closeAtChannels := by
  have h (t : State) (ch : Letter) := (closeAtChannel_frame t ch).mono
    (m := [.buffers, .sched, .banks, .channels, .engine, .draws]) (by decide)
  unfold State.closeAtChannels
  split
  · exact eitherOrder_frame _ _ (by decide) h
  · exact (h ..).trans (h ..)

theorem closeWindow_frame (s : State) :
    KeepsBut [.timeBase, .directory, .buffers, .sched, .banks, .channels, .engine, .draws] s s.closeWindow := by
  unfold State.closeWindow
  refine KeepsBut.trans (t := ({ s with timeBase := { s.timeBase with windowOpen := false } } : State).discardQueued) ?_
    (((closeAtChannels_frame _).mono (by decide)).trans ?_)
  all_goals
    refine ⟨fun p hp => ?_⟩
    cases p <;> first | rfl | simp at hp

theorem raiseWindow_frame (s : State) : KeepsBut [.timeBase, .sched] s s.raiseWindow := by
  refine ⟨fun p hp => ?_⟩
  cases p <;> first | rfl | simp at hp

theorem drawn_frame (s : State) : KeepsBut [.draws] s s.drawn := by
  refine ⟨fun p hp => ?_⟩
  cases p <;> first | rfl | simp at hp

theorem setAside_frame (s : State) (ids : List Nat) : KeepsBut [.sched] s (s.setAside ids) := by
  refine ⟨fun p hp => ?_⟩
  cases p <;> first | rfl | simp at hp

theorem putBack_frame (s : State) (ids : List Nat) (queues : Quad (List Nat)) :
    KeepsBut [.sched] s (s.putBack ids queues) := by
  refine ⟨fun p hp => ?_⟩
  cases p <;> first | rfl | simp at hp

theorem openWindow_frame (s : State) (held : List Nat) :
    KeepsBut [.timeBase, .buffers, .sched, .banks, .channels, .directory, .now, .draws] s (s.openWindow held) :=
  (((((raiseWindow_frame s).mono (by decide)).trans ((drawn_frame _).mono (by decide))).trans
    ((setAside_frame ..).mono (by decide))).trans ((dispatchPass_frame ..).mono (by decide))).trans
    ((putBack_frame ..).mono (by decide))

theorem retestWindow_frame (s : State) (held : List Nat) :
    KeepsBut [.timeBase, .directory, .buffers, .sched, .banks, .channels, .engine, .draws, .now] s
      (s.retestWindow held) := by
  unfold State.retestWindow
  dsimp only
  split
  · exact (openWindow_frame s held).mono (by decide)
  · split
    · exact (closeWindow_frame s).mono (by decide)
    · exact .refl ..

theorem returnJob_frame (s : State) (w : Work) : KeepsBut [.sched, .directory] s (s.returnJob w) := by
  rcases w with ⟨k, id, v⟩ | ⟨ch, c⟩
  · cases k with
    | scheduled c =>
      unfold State.returnJob
      dsimp only
      split <;> refine ⟨fun p hp => ?_⟩ <;> cases p <;> first | rfl | simp at hp
    | demand => refine ⟨fun p hp => ?_⟩; cases p <;> first | rfl | simp at hp
    | learn => refine ⟨fun p hp => ?_⟩; cases p <;> first | rfl | simp at hp
  · exact .refl ..

theorem inhibitChannel_frame (s : State) (ch : Letter) :
    KeepsBut [.directory, .buffers, .sched, .banks, .channels] s (s.inhibitChannel ch) := by
  unfold State.inhibitChannel
  split
  · refine ⟨fun p hp => ?_⟩
    cases p <;> first | rfl | simp at hp
  · refine KeepsBut.trans ?_ ((returnJob_frame ..).mono (by decide))
    refine ⟨fun p hp => ?_⟩
    cases p <;> first | rfl | simp at hp
  · exact .refl ..

theorem applyResult_frame (s : State) (r : Result) : KeepsBut [.table, .directory] s (s.applyResult r) := by
  refine ⟨fun p hp => ?_⟩
  cases p <;> first | rfl | simp at hp

theorem dispose_frame (s : State) (a : Analysis) : KeepsBut [.directory, .table, .channels] s (s.dispose a) := by
  have outcome (t : State) (w : Work) (o : LastOutcome) :
      KeepsBut [.directory, .table, .channels] t (t.endWithOutcome w o) := (endWithOutcome_frame ..).mono (by decide)
  have judge (id : Nat) (c : SpanCopy) (x : Extraction) :
      KeepsBut [.directory, .table, .channels] s
        (if c.landmarks = [] then s.judgeBare id x else s.judgeBaseline id a.flight c x) := by
    split <;> refine ⟨fun p hp => ?_⟩ <;> cases p <;> first | rfl | simp at hp
  unfold State.dispose
  split
  · split
    · exact .refl ..
    · refine ⟨fun p hp => ?_⟩
      cases p <;> first | rfl | simp at hp
  · split
    · exact .refl ..
    · unfold State.disposeSpan
      split
      · refine ⟨fun p hp => ?_⟩
        cases p <;> first | rfl | simp at hp
      · split
        · exact .refl ..
        · split
          · exact outcome ..
          · split
            · unfold State.judgeSpan
              dsimp only
              split
              · unfold State.judgeLearn
                split
                · exact outcome ..
                · unfold State.adoptList
                  dsimp only
                  split <;> refine ⟨fun p hp => ?_⟩ <;> cases p <;> first | rfl | simp at hp
              · exact judge ..
              · exact judge ..
            · exact .refl ..

theorem endAnalysis_frame (s : State) (a : Analysis) : KeepsBut [.buffers, .sched, .engine] s (s.endAnalysis a) := by
  unfold State.endAnalysis
  refine KeepsBut.trans ?_ ((takeHead_frame _).mono (by decide))
  refine ⟨fun p hp => ?_⟩
  cases p <;> first | rfl | simp at hp

end Sys2Proof.Machine
end

