-- ==== Sys2Proof/Laws/Directory.lean ====
section
/-! SUPPORT. The span directory under the operations that write it, and the reading of one span. -/

namespace Sys2Proof.Machine

theorem filterMap_modify (id : Nat) (f : SpanRecord → SpanRecord) (l : List Entry) :
    (l.map (Entry.modify id f)).filterMap Entry.span? =
      (l.filterMap Entry.span?).map (fun q => if q.id = id then f q else q) := by
  induction l with
  | nil => rfl
  | cons e l ih =>
    cases e with
    | span r =>
      by_cases h : r.id = id <;> simp [Entry.modify, Entry.span?, h] at ih ⊢ <;> exact ih
    | vacated i =>
      rw [List.map_cons, List.filterMap_cons_none rfl, List.filterMap_cons_none rfl]
      exact ih

theorem spans_modifySpan (s : State) (id : Nat) (f : SpanRecord → SpanRecord) :
    (s.modifySpan id f).spans = s.spans.map (fun q => if q.id = id then f q else q) :=
  filterMap_modify id f s.directory

theorem Entry.id_modify {id : Nat} {f : SpanRecord → SpanRecord} (h : ∀ q, q.id = id → (f q).id = id) (e : Entry) :
    (e.modify id f).id = e.id := by
  cases e with
  | span r =>
    by_cases hr : r.id = id
    · simp [Entry.modify, Entry.id, hr, h r hr]
    · simp [Entry.modify, Entry.id, hr]
  | vacated i => rfl

theorem ids_modifySpan {s : State} {id : Nat} {f : SpanRecord → SpanRecord} (h : ∀ q, q.id = id → (f q).id = id) :
    (s.modifySpan id f).directory.map Entry.id = s.directory.map Entry.id := by
  simp [State.modifySpan, Function.comp_def, Entry.id_modify h]

theorem vacated_mem_modifySpan {s : State} {id : Nat} {f : SpanRecord → SpanRecord} (i : Nat) :
    Entry.vacated i ∈ (s.modifySpan id f).directory ↔ Entry.vacated i ∈ s.directory := by
  simp only [State.modifySpan, List.mem_map]
  constructor
  · rintro ⟨e, he, hi⟩
    cases e with
    | span r => by_cases h : r.id = id <;> simp [Entry.modify, h] at hi
    | vacated j => simp only [Entry.modify, Entry.vacated.injEq] at hi; exact hi ▸ he
  · exact fun h => ⟨_, h, rfl⟩

theorem spanBecomes_modifySpan {s : State} {id : Nat} {f : SpanRecord → SpanRecord} (h : ∀ q, q.id = id → (f q).id = id) :
    SpanBecomes id f s (s.modifySpan id f) :=
  ⟨spans_modifySpan s id f, ids_modifySpan h, vacated_mem_modifySpan⟩

theorem spanBecomes_of_directory {s t : State} {id : Nat} {f : SpanRecord → SpanRecord}
    (ht : t.directory = s.directory.map (Entry.modify id f)) (h : ∀ q, q.id = id → (f q).id = id) :
    SpanBecomes id f s t := by
  have k := spanBecomes_modifySpan (s := s) h
  have hs : t.spans = (s.modifySpan id f).spans := by unfold State.spans; rw [ht]; rfl
  exact ⟨hs.trans k.spans, by rw [ht]; exact k.order, fun i => by rw [ht]; exact k.vacated i⟩

theorem SpanBecomes.congr_right {id : Nat} {f : SpanRecord → SpanRecord} {s t u : State} (h : SpanBecomes id f s t)
    (hu : u.directory = t.directory) : SpanBecomes id f s u :=
  ⟨by rw [← h.spans]; unfold State.spans; rw [hu], by rw [hu]; exact h.order, fun i => by rw [hu]; exact h.vacated i⟩

theorem SpanBecomes.congr_left {id : Nat} {f : SpanRecord → SpanRecord} {s t u : State} (h : SpanBecomes id f s t)
    (hu : u.directory = s.directory) : SpanBecomes id f u t :=
  ⟨by rw [h.spans]; unfold State.spans; rw [hu], by rw [hu]; exact h.order, fun i => by rw [hu]; exact h.vacated i⟩

theorem SpanBecomes.congr_fun {id : Nat} {f g : SpanRecord → SpanRecord} {s t : State} (h : SpanBecomes id f s t)
    (hg : ∀ r ∈ s.spans, r.id = id → f r = g r) : SpanBecomes id g s t := by
  refine ⟨?_, h.order, h.vacated⟩
  rw [h.spans]
  refine List.map_congr_left fun r hr => ?_
  by_cases hi : r.id = id
  · simp [hi, hg r hr hi]
  · simp [hi]

/-- Two writings of one span, one after the other. -/
theorem SpanBecomes.trans {id : Nat} {f g : SpanRecord → SpanRecord} {s t u : State} (h : SpanBecomes id f s t)
    (k : SpanBecomes id g t u) (hf : ∀ q, q.id = id → (f q).id = id) : SpanBecomes id (g ∘ f) s u := by
  refine ⟨?_, k.order.trans h.order, fun i => (k.vacated i).trans (h.vacated i)⟩
  rw [k.spans, h.spans, List.map_map]
  refine List.map_congr_left fun r _ => ?_
  by_cases hi : r.id = id
  · simp [hi, hf r hi]
  · simp [hi]

theorem ids_pairwise_of_law {s : State} (h : DirectoryLaw s) : (s.spans.map SpanRecord.id).Pairwise (· < ·) := by
  have key (l : List Entry) (hl : (l.map Entry.id).Pairwise (· < ·)) :
      ((l.filterMap Entry.span?).map SpanRecord.id).Pairwise (· < ·) := by
    rw [List.pairwise_map] at hl ⊢
    refine List.Pairwise.filterMap Entry.span? ?_ hl
    intro a a' haa b hb b' hb'
    cases a <;> cases a' <;> simp [Entry.span?] at hb hb'
    subst hb hb'
    exact haa
  exact key s.directory h.order

theorem eq_of_id_eq {s : State} (h : DirectoryLaw s) {q r : SpanRecord} (hq : q ∈ s.spans) (hr : r ∈ s.spans)
    (he : q.id = r.id) : q = r := by
  have hn : (s.spans.map SpanRecord.id).Nodup := (ids_pairwise_of_law h).imp (fun hab => Nat.ne_of_lt hab)
  exact List.inj_on_of_nodup_map hn hq hr he

theorem findSpan_of_mem {s : State} (h : DirectoryLaw s) {r : SpanRecord} (hr : r ∈ s.spans) :
    s.findSpan r.id = some r := by
  unfold State.findSpan
  cases hf : s.spans.find? (fun q => q.id == r.id) with
  | none => simpa using List.find?_eq_none.mp hf r hr
  | some q =>
    have hq := List.mem_of_find?_eq_some hf
    have hi : q.id = r.id := by simpa using List.find?_some hf
    rw [eq_of_id_eq h hq hr hi]

theorem findSpan_eq_none {s : State} {id : Nat} (h : ∀ r ∈ s.spans, r.id ≠ id) : s.findSpan id = none := by
  unfold State.findSpan
  exact List.find?_eq_none.mpr (by simpa using h)

theorem findSpan_some {s : State} {id : Nat} {r : SpanRecord} (h : s.findSpan id = some r) : r ∈ s.spans ∧ r.id = id :=
  ⟨List.mem_of_find?_eq_some h, by simpa using List.find?_some h⟩

theorem spans_becomeEmpty (s : State) (id : Nat) : (s.becomeEmpty id).spans = s.spans.filter (fun q => q.id != id) := by
  have key (l : List Entry) : (l.map (Entry.vacate id)).filterMap Entry.span? =
      (l.filterMap Entry.span?).filter (fun q => q.id != id) := by
    induction l with
    | nil => rfl
    | cons e l ih =>
      cases e with
      | span r =>
        by_cases h : r.id = id
        · rw [List.map_cons, List.filterMap_cons_none (by simp [Entry.vacate, Entry.span?, h]),
            List.filterMap_cons_some (f := Entry.span?) (b := r) rfl, List.filter_cons_of_neg (by simpa using h)]
          exact ih
        · rw [List.map_cons, List.filterMap_cons_some (b := r) (by simp [Entry.vacate, Entry.span?, h]),
            List.filterMap_cons_some (f := Entry.span?) (b := r) rfl, List.filter_cons_of_pos (by simpa using h), ih]
      | vacated i =>
        rw [List.map_cons, List.filterMap_cons_none rfl, List.filterMap_cons_none rfl]
        exact ih
  exact key s.directory

theorem Entry.id_vacate (id : Nat) (e : Entry) : (e.vacate id).id = e.id := by
  cases e with
  | span r => by_cases h : r.id = id <;> simp [Entry.vacate, Entry.id, h]
  | vacated i => rfl

theorem emptied_becomeEmpty (s : State) (id : Nat) : Emptied id s (s.becomeEmpty id) := by
  refine ⟨spans_becomeEmpty s id, ?_, ?_, rfl, rfl, rfl⟩
  · simp [State.becomeEmpty, State.retireConditions, Function.comp_def, Entry.id_vacate]
  · intro i
    simp only [State.becomeEmpty, State.retireConditions, List.mem_map, State.spans, List.mem_filterMap]
    constructor
    · rintro ⟨e, he, hi⟩
      cases e with
      | span r =>
        by_cases h : r.id = id
        · simp only [Entry.vacate, h, ↓reduceIte, Entry.vacated.injEq] at hi
          exact Or.inr ⟨hi.symm, r, ⟨_, he, rfl⟩, h⟩
        · simp [Entry.vacate, h] at hi
      | vacated j => simp only [Entry.vacate, Entry.vacated.injEq] at hi; exact Or.inl (hi ▸ he)
    · rintro (h | ⟨rfl, r, ⟨e, he, hr⟩, h⟩)
      · exact ⟨_, h, rfl⟩
      · cases e with
        | span q =>
          simp only [Entry.span?, Option.some.injEq] at hr
          subst hr
          exact ⟨_, he, by simp [Entry.vacate, h]⟩
        | vacated j => simp [Entry.span?] at hr

end Sys2Proof.Machine
end

