-- ==== Sys2Proof/Laws/Ops.lean ====
section
/-! SUPPORT. What each shared operation on buffers, banks, channels and the engine does, said once in the vocabulary of the
statements. -/

namespace Sys2Proof.Machine

/-! ### Buffers -/

theorem freeIfHeldBy_eq (j : JobId) (b : Option Holding) : freeIfHeldBy j b = b.filter (fun h => h.holder != j) := by
  cases b with
  | none => rfl
  | some h => by_cases hj : h.holder = j <;> simp [freeIfHeldBy, Option.filter, hj]

theorem freeIfHeldAs_eq (j : JobId) (r : Role) (b : Option Holding) :
    freeIfHeldAs j r b = b.filter (fun h => !(h.holder == j && h.role == r)) := by
  cases b with
  | none => rfl
  | some h => by_cases hj : h.holder = j <;> by_cases hr : h.role = r <;> simp [freeIfHeldAs, Option.filter, hj, hr]

theorem fillIfHeldAs_eq (j : JobId) (r : Role) (t : Trace) (b : Option Holding) :
    fillIfHeldAs j r t b = b.map (fun h => if h.holder = j ∧ h.role = r then { h with trace := some t } else h) := by
  cases b with
  | none => rfl
  | some h => by_cases hj : h.holder = j <;> by_cases hr : h.role = r <;> simp [fillIfHeldAs, hj, hr]

theorem buffers_freeBuffersOf (s : State) (j : JobId) (i : Fin 4) :
    (s.freeBuffersOf j).buffers.get i = (s.buffers.get i).filter (fun h => h.holder != j) := by
  simp [State.freeBuffersOf_buffers, freeIfHeldBy_eq]

theorem buffers_free1310 (s : State) (j : JobId) (i : Fin 4) :
    (s.free1310 j).buffers.get i = (s.buffers.get i).filter (fun h => !(h.holder == j && h.role == .nm1310)) := by
  simp [State.free1310_buffers, freeIfHeldAs_eq]

theorem buffers_fillBuffer (s : State) (j : JobId) (r : Role) (t : Trace) (i : Fin 4) :
    (s.fillBuffer j r t).buffers.get i =
      (s.buffers.get i).map (fun h => if h.holder = j ∧ h.role = r then { h with trace := some t } else h) := by
  simp [State.fillBuffer_buffers, fillIfHeldAs_eq]

/-! ### Giving up a job -/

theorem givesUp_dropFlight (s : State) (ch : Letter) (f : Flight) (rest : Activity) :
    GivesUp ch f rest s (s.dropFlight ch f rest) := by
  refine ⟨rfl, buffers_freeBuffersOf s f.work.id, fun l => ?_⟩
  simp only [State.dropFlight, State.setChannel_banks, State.releaseBank_banks, State.freeBuffersOf_banks, Pair.get_map,
    Bank.releasedBy]

theorem sched_dropFlight (s : State) (ch : Letter) (f : Flight) (rest : Activity) :
    (s.dropFlight ch f rest).sched = { s.sched with dispatchCalled := true } := rfl

theorem abortChannel_busy {s : State} {ch : Letter} {stage : Stage} {f : Flight}
    (h : (s.channels.get ch).activity = .busy stage f) :
    s.abortChannel ch = s.dropFlight ch f (if s.inputs.inhibit then .inhibited else .idle) := by
  simp only [State.abortChannel, h, State.restActivity]

/-! ### Endings -/

theorem ended_endWithOutcome (s : State) (w : Work) {o : LastOutcome} (h1 : o ≠ .clean) (h2 : o ≠ .findings) :
    Ended w o s (s.endWithOutcome w o) := by
  have write (id : Nat) (q : SpanRecord) :
      SpanRecord.withOutcome o s.timeBase.windowNumber none q =
        { q with lastOutcome := o, lastWindow := s.timeBase.windowNumber, mark := true } := by
    simp [SpanRecord.withOutcome, h1, h2]
  have plain (id : Nat) (kind : TestKind) (hk : kind ≠ .learn) :
      SpanBecomes id (SpanRecord.ended kind o s.timeBase.windowNumber) s (s.writeOutcome id o none) := by
    have a : SpanBecomes id (SpanRecord.withOutcome o s.timeBase.windowNumber none) s (s.writeOutcome id o none) :=
      spanBecomes_modifySpan (s := s) (id := id) fun q h => h
    refine a.congr_fun fun q _ _ => ?_
    rw [write id]
    simp [SpanRecord.ended, hk]
  match w with
  | .verify _ _ => rfl
  | .test .demand id _ => exact plain id .demand (by simp)
  | .test (.scheduled c) id _ => exact plain id (.scheduled c) (by simp)
  | .test .learn id _ =>
    have a : SpanBecomes id (SpanRecord.withOutcome o s.timeBase.windowNumber none) s (s.writeOutcome id o none) :=
      spanBecomes_modifySpan (s := s) (id := id) fun q h => h
    have b : SpanBecomes id SpanRecord.endLearn (s.writeOutcome id o none)
        ((s.writeOutcome id o none).modifySpan id SpanRecord.endLearn) :=
      spanBecomes_modifySpan fun q h => by unfold SpanRecord.endLearn; split <;> exact h
    refine (a.trans b fun q h => h).congr_fun fun q _ _ => ?_
    simp only [Function.comp, write id, SpanRecord.endLearn, SpanRecord.ended]
    by_cases hq : q.state = .learning <;> simp [hq]

/-! ### Settle completion -/

theorem settle_free_match {s : State} {l : Letter} {sense : Option Nat} (hh : (s.banks.get l).holder = none)
    (h : sense = some (s.banks.get l).commanded) : s.settle l sense = s.setBank l ((s.banks.get l).settled sense) := by
  simp only [State.settle, hh, if_pos h]

theorem settle_free_mismatch {s : State} {l : Letter} {sense : Option Nat} (hh : (s.banks.get l).holder = none)
    (h : sense ≠ some (s.banks.get l).commanded) : s.settle l sense = s.setBank l ((s.banks.get l).faulted sense) := by
  simp only [State.settle, hh, if_neg h]

theorem settle_match {s : State} {l ch : Letter} {sense : Option Nat} {stage : Stage} {f : Flight}
    (hh : (s.banks.get l).holder = some ch) (ha : (s.channels.get ch).activity = .busy stage f)
    (h : sense = some (s.banks.get l).commanded) :
    s.settle l sense =
      (s.setBank l ((s.banks.get l).settled sense)).setActivity ch (.busy (.guard (s.now + guardNs)) f) := by
  simp only [State.settle, hh, ha, if_pos h]

theorem settle_mismatch {s : State} {l ch : Letter} {sense : Option Nat} {stage : Stage} {f : Flight}
    (hh : (s.banks.get l).holder = some ch) (ha : (s.channels.get ch).activity = .busy stage f)
    (h : sense ≠ some (s.banks.get l).commanded) :
    s.settle l sense =
      ((s.setBank l ((s.banks.get l).faulted sense)).endWithOutcome f.work .bankFault).dropFlight ch f .idle := by
  simp only [State.settle, hh, ha, if_neg h]

/-! ### The engine -/

theorem takeHead_of_current {s : State} (h : s.engine.current.isSome = true) : s.takeHead = s := by
  unfold State.takeHead
  split
  · simp_all
  · rfl

theorem takeHead_of_empty {s : State} (h : s.engine.queue = []) : s.takeHead = s := by
  unfold State.takeHead
  split
  · simp_all
  · rfl

theorem takeHead_of_input {s : State} {f : Flight} {rest : List Flight} {input : InputCopy}
    (hc : s.engine.current = none) (hq : s.engine.queue = f :: rest) (hi : s.inputCopy f = some input) :
    s.takeHead =
      { s with engine :=
          { queue := rest
            current := some ⟨f, input, s.now + analysisNs f.snapshot.profile.pointCount input.traces⟩ } } := by
  simp only [State.takeHead, hc, hq, hi]

/-- A job in the analysis queue is in it or in the engine after a take. -/
theorem arrived_takeHead {s : State} {g : Flight} (h : g ∈ s.engine.queue) :
    g ∈ s.takeHead.engine.queue ∨ s.takeHead.engine.current.map Analysis.flight = some g := by
  unfold State.takeHead
  split
  · rename_i f rest _ hq
    split
    · rw [hq] at h
      rcases List.mem_cons.mp h with h | h
      · exact Or.inr (by simp [h])
      · exact Or.inl h
    · exact Or.inl h
  · exact Or.inl h

/-- A job that is in the analysis queue or in the engine stays in one of them at a take. -/
theorem stays_takeHead {s : State} {g : Flight}
    (h : g ∈ s.engine.queue ∨ s.engine.current.map Analysis.flight = some g) :
    g ∈ s.takeHead.engine.queue ∨ s.takeHead.engine.current.map Analysis.flight = some g := by
  rcases h with h | h
  · exact arrived_takeHead h
  · rw [takeHead_of_current (by cases hc : s.engine.current <;> simp_all)]
    exact Or.inr h

/-- An engine that is idle takes the head of its queue, where that job can be taken. -/
theorem taken_takeHead {s : State} {g : Flight} {rest : List Flight} (hc : s.engine.current = none)
    (hq : s.engine.queue = g :: rest) (ht : Takeable s g) :
    ∃ a, s.takeHead.engine = { queue := rest, current := some a } ∧ TakenAs s g a := by
  obtain ⟨trace, htrace⟩ := Option.isSome_iff_exists.mp ht.trace
  cases hw : g.work with
  | verify own coil =>
    have hs : s.subjectOf g = some (.coil coil) := by simp only [State.subjectOf, hw]
    have hi : s.inputCopy g = some ⟨trace.levels, (s.traceOf g.work.id .nm1310).map Trace.levels, g.snapshot,
        (g.recorded.map Recorded.trim).getD 0, .coil coil⟩ := by simp only [State.inputCopy, htrace, hs]
    refine ⟨_, by rw [takeHead_of_input hc hq hi], rfl, by rw [htrace]; rfl, rfl, rfl, rfl, rfl, ?_, ?_⟩
    · intro kind id rev h
      rw [hw] at h
      cases h
    · intro own' coil' h
      rw [hw] at h
      cases h
      rfl
  | test kind id rev =>
    obtain ⟨r, hr, hn⟩ := ht.span kind id rev hw
    have hs : s.subjectOf g = some (.span (spanCopyOf kind g.snapshot r)) := by
      simp only [State.subjectOf, hw, hr, if_neg hn]
    have hi : s.inputCopy g = some ⟨trace.levels, (s.traceOf g.work.id .nm1310).map Trace.levels, g.snapshot,
        (g.recorded.map Recorded.trim).getD 0, .span (spanCopyOf kind g.snapshot r)⟩ := by
      simp only [State.inputCopy, htrace, hs]
    refine ⟨_, by rw [takeHead_of_input hc hq hi], rfl, by rw [htrace]; rfl, rfl, rfl, rfl, rfl, ?_, ?_⟩
    · intro kind' id' rev' h
      rw [hw] at h
      cases h
      exact ⟨r, _, hr, rfl, rfl, rfl, rfl⟩
    · intro own' coil' h
      rw [hw] at h
      cases h

/-- What a take reads of a state is its buffers, its spans and its clock. -/
theorem Takeable.congr {s t : State} {g : Flight} (hb : t.buffers = s.buffers) (hd : t.directory = s.directory)
    (h : Takeable t g) : Takeable s g := by
  have ht (j : JobId) (r : Role) : t.traceOf j r = s.traceOf j r := by unfold State.traceOf; rw [hb]
  have hf (id : Nat) : t.findSpan id = s.findSpan id := by unfold State.findSpan State.spans; rw [hd]
  exact ⟨by rw [← ht]; exact h.trace, fun kind id rev hw => by rw [← hf]; exact h.span kind id rev hw⟩

theorem TakenAs.congr {s t : State} {g : Flight} {a : Analysis} (hb : t.buffers = s.buffers)
    (hd : t.directory = s.directory) (hn : t.now = s.now) (h : TakenAs s g a) : TakenAs t g a := by
  have ht (j : JobId) (r : Role) : t.traceOf j r = s.traceOf j r := by unfold State.traceOf; rw [hb]
  have hf (id : Nat) : t.findSpan id = s.findSpan id := by unfold State.findSpan State.spans; rw [hd]
  exact ⟨h.flight, by rw [ht]; exact h.primary, by rw [ht]; exact h.secondary, h.snapshot, h.trim,
    by rw [hn]; exact h.due, fun kind id rev hw => by rw [hf]; exact h.span kind id rev hw, h.coil⟩

/-- A take as the state after it shows it: the state's buffers, spans and clock are those that the take read. -/
theorem taken_of_takeHead {s : State} {g : Flight} {rest : List Flight} (hc : s.engine.current = none)
    (hq : s.engine.queue = g :: rest) (ht : Takeable s.takeHead g) :
    ∃ a, s.takeHead.engine = { queue := rest, current := some a } ∧ TakenAs s.takeHead g a := by
  have hb : s.takeHead.buffers = s.buffers := (takeHead_frame s).same .buffers (by decide)
  have hd : s.takeHead.directory = s.directory := (takeHead_frame s).same .directory (by decide)
  have hn : s.takeHead.now = s.now := (takeHead_frame s).same .now (by decide)
  obtain ⟨a, he, ha⟩ := taken_takeHead hc hq (ht.congr hb hd)
  exact ⟨a, he, ha.congr hb hd hn⟩

theorem handsOn_handOn (s : State) (ch : Letter) (f : Flight) :
    HandsOn ch { f with recorded := some { trim := (s.channels.get ch).trim
                                           degraded := (s.channels.get ch).degraded } } s (s.handOn ch f) := by
  have keep (u : State) : u.takeHead.channels = u.channels ∧ u.takeHead.banks = u.banks ∧ u.takeHead.sched = u.sched :=
    ⟨(takeHead_frame u).same .channels (by decide), (takeHead_frame u).same .banks (by decide),
      (takeHead_frame u).same .sched (by decide)⟩
  refine ⟨?_, rfl, fun l => ?_, ?_, ?_, ?_, ?_⟩
  · unfold State.handOn
    rw [(keep _).1]
    rfl
  · unfold State.handOn
    rw [(keep _).2.1]
    simp only [State.releaseBank_banks, State.setChannel_banks, Pair.get_map, Bank.releasedBy]
  · unfold State.handOn
    rw [(keep _).2.2]
    rfl
  · intro h
    unfold State.handOn
    have stay (u : State) (hu : u.engine.current.isSome = true) : u.takeHead.engine = u.engine := by
      rw [takeHead_of_current hu]
    exact stay _ h
  · unfold State.handOn
    exact arrived_takeHead (List.mem_append_right _ (List.mem_singleton.mpr rfl))
  · intro he ht
    refine taken_of_takeHead ?_ ?_ ht
    · exact congrArg Engine.current he
    · exact congrArg (fun e => e.queue ++ [_]) he

theorem finishes_endAnalysis (s u : State) (a : Analysis) (hb : u.buffers = s.buffers) (hs : u.sched = s.sched)
    (he : u.engine = s.engine) (hn : u.now = max s.now a.due) : Finishes a s (u.endAnalysis a) := by
  have keep (u : State) : u.takeHead.buffers = u.buffers ∧ u.takeHead.sched = u.sched ∧ u.takeHead.now = u.now :=
    ⟨(takeHead_frame u).same .buffers (by decide), (takeHead_frame u).same .sched (by decide),
      (takeHead_frame u).same .now (by decide)⟩
  refine ⟨fun i => ?_, ?_, fun hq => ?_, fun g rest hq ht => ?_, ?_⟩
  · unfold State.endAnalysis
    rw [(keep _).1, ← hb]
    exact buffers_freeBuffersOf u a.flight.work.id i
  · unfold State.endAnalysis
    rw [(keep _).2.1, ← hs]
    rfl
  · unfold State.endAnalysis
    have : u.engine.queue = [] := by rw [he]; exact hq
    rw [takeHead_of_empty (by exact this)]
    simp [State.freeBuffersOf, State.callDispatch, this]
  · refine taken_of_takeHead rfl ?_ ht
    exact (congrArg Engine.queue he).trans hq
  · unfold State.endAnalysis
    rw [(keep _).2.2, ← hn]
    rfl

end Sys2Proof.Machine
end

