-- ==== Sys2Proof/Laws/Dispatch.lean ====
section
/-! SUPPORT. What each operation of a dispatch pass does, said once: eligibility, dispatch to a channel, a channel
considered, the choice of a victim, pre-emption, the whole pass, and the window open that holds one. -/

namespace Sys2Proof.Machine

/-! ### Eligibility (R175) -/

theorem portOf_eq_some {s : State} {j : Job} {l : Letter} {position : Nat} :
    s.portOf j = some (l, position) ↔ NeedsPort s j l position := by
  cases j with
  | test kind id =>
    simp only [State.portOf, Option.map_eq_some_iff, Prod.mk.injEq]
    constructor
    · rintro ⟨r, hr, h1, h2⟩
      exact ⟨fun _ _ h => by cases h; exact ⟨r, hr, h1, h2⟩, fun _ h => by cases h⟩
    · exact fun h => h.test kind id rfl
  | verify own =>
    simp only [State.portOf, Option.some.injEq, Prod.mk.injEq]
    constructor
    · rintro ⟨h1, h2⟩
      refine ⟨fun _ _ h => ?_, fun _ h => ?_⟩
      · cases h
      · cases h
        exact ⟨h1.symm, h2.symm⟩
    · exact fun h => ⟨(h.verify own rfl).1.symm, (h.verify own rfl).2.symm⟩

theorem length_freeBuffers (s : State) : s.freeBuffers.length = s.freeBufferCount := by
  rcases s with ⟨_, _, _, _, _, _, _, _, ⟨b0, b1, b2, b3⟩, _⟩
  cases b0 <;> cases b1 <;> cases b2 <;> cases b3 <;> rfl

theorem buffers_planFor (s : State) (ch : Letter) (j : Job) : (s.planFor ch j).buffers = s.buffersNeeded ch j := by
  cases j with
  | test kind id =>
    simp only [State.planFor, State.buffersNeeded, Bool.and_eq_true]
    split <;> rfl
  | verify own => rfl

theorem isInhibited_iff (a : Activity) : a.isInhibited = true ↔ a = .inhibited := by
  cases a <;> simp [Activity.isInhibited]

theorem isIdle_iff (a : Activity) : a.isIdle = true ↔ a = .idle := by
  cases a <;> simp [Activity.isIdle]

theorem eligible_iff (s : State) (ch : Letter) (j : Job) : s.eligible ch j = true ↔ EligibleOn s ch j := by
  have awake : (s.channels.a.activity.isInhibited = false ∧ s.channels.b.activity.isInhibited = false) ↔
      ∀ c : Letter, (s.channels.get c).activity ≠ .inhibited := by
    constructor
    · rintro ⟨ha, hb⟩ c h
      cases c
      · rw [(isInhibited_iff s.channels.a.activity).mpr h] at ha; cases ha
      · rw [(isInhibited_iff s.channels.b.activity).mpr h] at hb; cases hb
    · intro h
      refine ⟨?_, ?_⟩
      · exact Bool.eq_false_iff.mpr fun hc => h .A ((isInhibited_iff _).mp hc)
      · exact Bool.eq_false_iff.mpr fun hc => h .B ((isInhibited_iff _).mp hc)
  have holder (l : Letter) : ((s.banks.get l).holder = none ∨ (s.banks.get l).holder = some ch) ↔
      ∀ c, c ≠ ch → (s.banks.get l).holder ≠ some c := by
    cases hh : (s.banks.get l).holder with
    | none => simp
    | some d => cases d <;> cases ch <;> simp [eq_comm]
  have own : j.runsOn ch = true ↔ ∀ c, j = .verify c → c = ch := by
    cases j <;> simp [Job.runsOn]
  have bank : (match s.portOf j with
      | some (l, _) => s.bankFree ch l
      | none => false) = true ↔ ∃ l position, NeedsPort s j l position ∧ s.present l = true ∧
        (s.banks.get l).service = .inService ∧ ∀ c, c ≠ ch → (s.banks.get l).holder ≠ some c := by
    constructor
    · intro h
      cases hp : s.portOf j with
      | none => rw [hp] at h; cases h
      | some q =>
        rw [hp] at h
        simp only [State.bankFree, Bool.and_eq_true, Bool.or_eq_true, beq_iff_eq] at h
        exact ⟨q.1, q.2, portOf_eq_some.mp hp, h.1.1, h.1.2, (holder q.1).mp h.2⟩
    · rintro ⟨l, position, hp, h1, h2, h3⟩
      rw [portOf_eq_some.mpr hp]
      simp only [State.bankFree, Bool.and_eq_true, Bool.or_eq_true, beq_iff_eq]
      exact ⟨⟨h1, h2⟩, (holder l).mpr h3⟩
  have free : (s.planFor ch j).buffers ≤ s.freeBufferCount ↔
      s.buffersNeeded ch j ≤ (([0, 1, 2, 3] : List (Fin 4)).filter (fun i => (s.buffers.get i).isNone)).length := by
    rw [buffers_planFor, ← length_freeBuffers]
    rfl
  unfold State.eligible
  simp only [Bool.and_eq_true, Bool.not_eq_true', decide_eq_true_eq]
  constructor
  · rintro ⟨⟨⟨ha, hb⟩, hf⟩, ho⟩
    exact ⟨awake.mp ha, bank.mp hb, free.mp hf, own.mp ho⟩
  · intro h
    exact ⟨⟨⟨awake.mpr h.awake, bank.mpr h.bank⟩, free.mpr h.buffers⟩, own.mpr h.own⟩

theorem NeedsPort.congr {u v : State} {j : Job} {l : Letter} {position : Nat} (h : NeedsPort u j l position)
    (hd : u.directory = v.directory) : NeedsPort v j l position := by
  have hs (id : Nat) : u.findSpan id = v.findSpan id := by unfold State.findSpan State.spans; rw [hd]
  exact ⟨fun kind id hj => by rw [← hs]; exact h.test kind id hj, h.verify⟩

/-- What R175 reads of a state. -/
theorem EligibleOn.congr {u v : State} {ch : Letter} {j : Job} (h : EligibleOn u ch j)
    (hd : u.directory = v.directory) (ht : u.timeBase = v.timeBase) (hi : u.inputs = v.inputs)
    (hc : u.channels = v.channels) (hb : ∀ l, u.banks.get l = v.banks.get l)
    (hf : ∀ i, u.buffers.get i = v.buffers.get i) : EligibleOn v ch j := by
  have hp (l : Letter) : u.present l = v.present l := by unfold State.present; rw [hi]
  refine ⟨by rw [← hc]; exact h.awake, ?_, ?_, h.own⟩
  · obtain ⟨l, position, hn, h1, h2, h3⟩ := h.bank
    exact ⟨l, position, hn.congr hd, by rw [← hp]; exact h1, by rw [← hb]; exact h2, by rw [← hb]; exact h3⟩
  · have hneed : u.buffersNeeded ch j = v.buffersNeeded ch j := by
      unfold State.buffersNeeded State.fitted
      rw [ht, hi]
    have hfilter : (fun i => (v.buffers.get i).isNone) = (fun i => (u.buffers.get i).isNone) := by
      funext i
      rw [hf]
    rw [← hneed, hfilter]
    exact h.buffers

/-! ### Buffers taken (R82) -/

/-- The numbers that a list of the numbers passing `p` begins with. -/
theorem filter_numbers : ∀ p : Fin 4 → Bool,
    match ([0, 1, 2, 3] : List (Fin 4)).filter p with
    | [] => True
    | [i] => p i = true ∧ ∀ m, m < i → p m = false
    | i :: k :: _ => (p i = true ∧ ∀ m, m < i → p m = false) ∧ i < k ∧ p k = true ∧ ∀ m, i < m → m < k → p m = false := by
  intro p
  cases h0 : p 0 <;> cases h1 : p 1 <;> cases h2 : p 2 <;> cases h3 : p 3 <;>
    simp [h0, h1, h2, h3, Fin.forall_fin_succ]

theorem takesBuffers_takeBuffers {s : State} {j : JobId} {plan : Plan} (h : plan.buffers ≤ s.freeBufferCount) :
    ∃ i k : Fin 4, TakesBuffers s (s.takeBuffers j plan) j plan i k ∧
      ∀ m, m ≠ i → (plan = .dual → m ≠ k) → (s.takeBuffers j plan).buffers.get m = s.buffers.get m := by
  have numbers := filter_numbers (fun i => (s.buffers.get i).isNone)
  rw [← length_freeBuffers] at h
  have first {i : Fin 4} (hp : (s.buffers.get i).isNone = true) (hm : ∀ m, m < i → (s.buffers.get m).isNone = false) :
      s.FirstFreeFrom 0 i :=
    ⟨Nat.zero_le _, Option.isNone_iff_eq_none.mp hp, fun m _ hlt => by
      have := hm m hlt
      cases hb : s.buffers.get m <;> simp_all⟩
  cases plan with
  | single =>
    cases hf : s.freeBuffers with
    | nil => rw [hf] at h; exact absurd h (by decide)
    | cons i rest =>
      have hi : (s.buffers.get i).isNone = true ∧ ∀ m, m < i → (s.buffers.get m).isNone = false := by
        have hl : ([0, 1, 2, 3] : List (Fin 4)).filter (fun i => (s.buffers.get i).isNone) = i :: rest := hf
        rw [hl] at numbers
        cases rest with
        | nil => exact numbers
        | cons k rest => exact numbers.1
      have ht : s.takeBuffers j .single = { s with buffers := s.buffers.set i (some ⟨j, .nm1625, none⟩) } := by
        simp only [State.takeBuffers, hf]
      refine ⟨i, i, ⟨⟨first hi.1 hi.2, ?_⟩, fun h => by cases h⟩, fun m hm _ => ?_⟩
      · rw [ht]; exact Quad.get_set_self _ _ _
      · rw [ht]; exact Quad.get_set_ne _ hm _
  | dual =>
    cases hf : s.freeBuffers with
    | nil => rw [hf] at h; exact absurd h (by decide)
    | cons i rest =>
      cases rest with
      | nil => rw [hf] at h; exact absurd h (by simp [Plan.buffers])
      | cons k rest =>
        have hl : ([0, 1, 2, 3] : List (Fin 4)).filter (fun i => (s.buffers.get i).isNone) = i :: k :: rest := hf
        rw [hl] at numbers
        have ht : s.takeBuffers j .dual =
            { s with buffers := (s.buffers.set i (some ⟨j, .nm1625, none⟩)).set k (some ⟨j, .nm1310, none⟩) } := by
          simp only [State.takeBuffers, hf]
        obtain ⟨hi, hik, hk, hbetween⟩ := numbers
        refine ⟨i, k, ⟨⟨first hi.1 hi.2, ?_⟩, fun _ => ⟨⟨hik, Option.isNone_iff_eq_none.mp hk, fun m h1 h2 => ?_⟩, ?_⟩⟩,
          fun m hm1 hm2 => ?_⟩
        · rw [ht]
          exact (Quad.get_set_ne _ (Fin.ne_of_lt hik) _).trans (Quad.get_set_self _ _ _)
        · have := hbetween m h1 h2
          cases hb : s.buffers.get m <;> simp_all
        · rw [ht]; exact Quad.get_set_self _ _ _
        · rw [ht]
          exact (Quad.get_set_ne _ (hm2 rfl) _).trans (Quad.get_set_ne _ hm1 _)

/-! ### Dispatch to a channel (R178) -/

theorem startsAs_flightOf (s : State) (ch : Letter) (j : Job) : StartsAs s ch j (s.flightOf ch j) := by
  refine ⟨⟨rfl, rfl⟩, ⟨rfl, rfl, rfl, rfl, rfl, rfl⟩, ?_, ?_, ?_, rfl, rfl, ?_, rfl, rfl⟩
  · cases j <;> rfl
  · rintro kind id rfl r hr rfl hl
    have hf := findSpan_of_mem hl hr
    refine ⟨?_, ?_, ?_, ?_⟩
    · simp [State.flightOf, State.workOf, hf]
    · simp [State.flightOf, State.profileOf, snapshotOf, hf]
    · simp [State.flightOf, State.profileOf, snapshotOf, hf]
    · simp [State.flightOf, State.planFor]
  · rintro own rfl
    exact ⟨rfl, rfl, rfl, rfl⟩
  · intro k hk
    generalize hp : s.profiles.get (s.profileOf j) = p at *
    have hc : (s.flightOf ch j).snapshot.profile = p := hp
    have hb : (s.flightOf ch j).snapshot.pulseBins = pulseBins p.pulseCode := by
      rw [← hp]; rfl
    rw [hc] at hk
    rw [hb]
    generalize p.pulseCode = code at *
    match code, hk with
    | 0, hk => exact Option.some.inj hk
    | 1, hk => exact Option.some.inj hk
    | 2, hk => exact Option.some.inj hk
    | 3, hk => exact Option.some.inj hk
    | 4, hk => exact Option.some.inj hk
    | 5, hk => exact Option.some.inj hk
    | n + 6, hk => cases hk

theorem queueLeft_unqueue (s : State) (j : Job) : QueueLeft j s (s.unqueue j) := by
  rcases j with ⟨kind, id⟩ | own
  · cases kind with
    | scheduled c =>
      refine ⟨rfl, ?_, ?_, ?_⟩
      · rintro c' id' h; cases h; exact ⟨rfl, rfl, rfl⟩
      · rintro id' (h | h) <;> cases h
      · rintro own h; cases h
    | demand =>
      refine ⟨rfl, ?_, ?_, ?_⟩
      · rintro c' id' h; cases h
      · rintro id' (h | h) <;> cases h
        exact ⟨rfl, rfl, rfl⟩
      · rintro own h; cases h
    | learn =>
      refine ⟨rfl, ?_, ?_, ?_⟩
      · rintro c' id' h; cases h
      · rintro id' (h | h) <;> cases h
        exact ⟨rfl, rfl, rfl⟩
      · rintro own h; cases h
  · refine ⟨rfl, ?_, ?_, ?_⟩
    · rintro c' id' h; cases h
    · rintro id' (h | h) <;> cases h
    · rintro own' h; cases h; exact ⟨rfl, rfl, rfl⟩

/-- The state in which the channel of a dispatch takes its bank: the job has left its queue, holds its buffers, and is in
SWITCHING. -/
def State.started (s : State) (ch : Letter) (j : Job) : State :=
  ((s.unqueue j).takeBuffers j.id (s.planFor ch j)).setActivity ch (.busy .switching (s.flightOf ch j))

theorem started_frame (s : State) (ch : Letter) (j : Job) : KeepsBut [.sched, .buffers, .channels] s (s.started ch j) :=
  ((unqueue_frame s j).mono (by decide)).trans
    (((takeBuffers_frame _ j.id _).mono (by decide)).trans ((setActivity_frame _ ch _).mono (by decide)))

theorem dispatch_eq {s : State} {ch : Letter} {j : Job} {l : Letter} {position : Nat} (senses : Pair (Option Nat))
    (h : NeedsPort s j l position) :
    s.dispatch ch j senses = (s.started ch j).takeBank ch l position (senses.get l) := by
  unfold State.dispatch
  rw [portOf_eq_some.mpr h]
  rfl

theorem takeBank_away {u : State} {ch l : Letter} {position : Nat} (sense : Option Nat)
    (h : (u.banks.get l).motion ≠ .still ∨ (u.banks.get l).commanded ≠ position) :
    u.takeBank ch l position sense = u.setBank l { u.banks.get l with
      holder := some ch
      commanded := position
      motion := if (u.banks.get l).commanded = position then (u.banks.get l).motion
        else .moving (u.now + 30000000) } := by
  unfold State.takeBank
  by_cases hc : (u.banks.get l).commanded = position
  · subst hc
    dsimp only
    split
    · rename_i hm
      exact absurd hm (h.resolve_right (fun hn => hn rfl))
    · simp
  · dsimp only
    split <;> simp [hc, settleNs]

theorem takeBank_at {u : State} {ch l : Letter} {position : Nat} (sense : Option Nat)
    (hm : (u.banks.get l).motion = .still) (hc : (u.banks.get l).commanded = position) :
    u.takeBank ch l position sense = (u.setBank l { u.banks.get l with holder := some ch }).settle l sense := by
  unfold State.takeBank
  simp only [hm, if_pos hc]

theorem Pair.set_set {α : Type} (p : Pair α) (l : Letter) (x y : α) : (p.set l x).set l y = p.set l y := by
  cases l <;> rfl

theorem Ended.congr {w : Work} {o : LastOutcome} {s t u v : State} (h : Ended w o s t)
    (hs : u.directory = s.directory) (hn : u.timeBase = s.timeBase) (ht : v.directory = t.directory) : Ended w o u v := by
  cases w with
  | verify own coil => exact ht.trans (Eq.trans h hs.symm)
  | test kind id rev =>
    have b : SpanBecomes id (SpanRecord.ended kind o s.timeBase.windowNumber) s t := h
    rw [← hn] at b
    exact (b.congr_left hs).congr_right ht

theorem dispatchesTo_dispatch {s : State} {ch : Letter} {j : Job} {l : Letter} {position : Nat}
    (senses : Pair (Option Nat)) (h : NeedsPort s j l position) (hb : s.buffersNeeded ch j ≤ s.freeBufferCount) :
    DispatchesTo senses.get ch j l position s (s.dispatch ch j senses) := by
  have frame := started_frame s ch j
  have banks : (s.started ch j).banks = s.banks := frame.same .banks (by decide)
  have directory : (s.started ch j).directory = s.directory := frame.same .directory (by decide)
  have now : (s.started ch j).now = s.now := frame.same .now (by decide)
  have taken : ∀ p, ((s.unqueue j).takeBuffers j.id p).channels = s.channels ∧
      ((s.unqueue j).takeBuffers j.id p).sched = (s.unqueue j).sched := fun p =>
    ⟨((takeBuffers_frame _ j.id p).same .channels (by decide)).trans ((unqueue_frame s j).same .channels (by decide)),
      (takeBuffers_frame _ j.id p).same .sched (by decide)⟩
  have channels : (s.started ch j).channels =
      s.channels.set ch { s.channels.get ch with activity := .busy .switching (s.flightOf ch j) } := by
    unfold State.started State.setActivity State.setChannel
    simp only [(taken _).1]
  have sched : (s.started ch j).sched = (s.unqueue j).sched := (taken _).2
  have buffers : ∃ i k : Fin 4, TakesBuffers s (s.started ch j) j.id (s.flightOf ch j).plan i k ∧
      ∀ m, m ≠ i → ((s.flightOf ch j).plan = .dual → m ≠ k) →
        (s.started ch j).buffers.get m = s.buffers.get m := by
    have hu : (s.unqueue j).buffers = s.buffers := (unqueue_frame s j).same .buffers (by decide)
    have hc : (s.unqueue j).freeBufferCount = s.freeBufferCount := by unfold State.freeBufferCount; rw [hu]
    obtain ⟨i, k, ht, hm⟩ := takesBuffers_takeBuffers (s := s.unqueue j) (j := j.id) (plan := s.planFor ch j)
      (by rw [buffers_planFor, hc]; exact hb)
    have first (n : Nat) (i : Fin 4) (hf : (s.unqueue j).FirstFreeFrom n i) : s.FirstFreeFrom n i := by
      unfold State.FirstFreeFrom at *
      rwa [hu] at hf
    exact ⟨i, k, ⟨⟨first 0 i ht.first.1, ht.first.2⟩, fun hp => ⟨first _ k (ht.second hp).1, (ht.second hp).2⟩⟩,
      fun m h1 h2 => (hm m h1 h2).trans (by rw [hu])⟩
  have called : (s.started ch j).sched.dispatchCalled = s.sched.dispatchCalled := by
    rw [sched]
    rcases j with ⟨kind, id⟩ | own
    · cases kind <;> rfl
    · rfl
  have queue {t : State} (h1 : t.sched.classQueues = (s.started ch j).sched.classQueues)
      (h2 : t.sched.demandQueue = (s.started ch j).sched.demandQueue)
      (h3 : t.sched.verifyPlaces = (s.started ch j).sched.verifyPlaces)
      (h4 : t.sched.classes = (s.started ch j).sched.classes) : QueueLeft j s t := by
    have q := queueLeft_unqueue s j
    rw [sched] at h1 h2 h3 h4
    exact ⟨by rw [h4]; exact q.classes, by rw [h1, h2, h3]; exact q.scheduled, by rw [h1, h2, h3]; exact q.demand,
      by rw [h1, h2, h3]; exact q.verify⟩
  have takesUp {t : State} (h1 : t.buffers = (s.started ch j).buffers) (h2 : t.directory = (s.started ch j).directory)
      (h3 : t.sched = (s.started ch j).sched) : TakesUp s t ch j (s.flightOf ch j) := by
    obtain ⟨i, k, ht, hm⟩ := buffers
    refine ⟨startsAs_flightOf s ch j, ⟨i, k, ⟨?_, ?_⟩, ?_⟩, h2.trans directory, by rw [h3]; exact called⟩
    · rw [h1]; exact ht.first
    · rw [h1]; exact ht.second
    · rw [h1]; exact hm
  have activity : ((s.started ch j).channels.get ch).activity = .busy .switching (s.flightOf ch j) := by
    rw [channels, Pair.get_set_self]
  have whole := dispatch_frame s ch j senses
  rw [dispatch_eq senses h] at whole ⊢
  generalize s.started ch j = u at *
  refine ⟨whole, ?_, fun ha => ?_, fun hm hc hs => ?_, fun hm hc hs => ?_⟩
  · by_cases ha : (u.banks.get l).motion ≠ .still ∨ (u.banks.get l).commanded ≠ position
    · rw [takeBank_away _ ha]
      exact queue rfl rfl rfl rfl
    · obtain ⟨hm, hc⟩ := not_or.mp ha
      have hm := not_not.mp hm
      have hc := not_not.mp hc
      rw [takeBank_at _ hm hc]
      by_cases hs : senses.get l = some position
      · rw [settle_match (ch := ch) (stage := .switching) (f := s.flightOf ch j) (by simp) (by simpa using activity)
          (by simp [hs, hc])]
        exact queue rfl rfl rfl rfl
      · rw [settle_mismatch (ch := ch) (stage := .switching) (f := s.flightOf ch j) (by simp) (by simpa using activity)
          (by simp [hs, hc])]
        have hw (v : State) : (v.endWithOutcome (s.flightOf ch j).work .bankFault).sched = v.sched :=
          (endWithOutcome_frame v _ _).same .sched (by decide)
        refine queue ?_ ?_ ?_ ?_ <;> simp [sched_dropFlight, hw]
  · rw [← banks] at ha ⊢
    rw [takeBank_away _ ha]
    exact ⟨_, takesUp rfl rfl rfl, channels, by rw [← now]; rfl⟩
  · rw [← banks] at hm hc ⊢
    rw [takeBank_at _ hm hc,
      settle_match (ch := ch) (stage := .switching) (f := s.flightOf ch j) (by simp) (by simpa using activity)
        (by simp [hs, hc])]
    refine ⟨_, takesUp rfl rfl rfl, ?_, ?_⟩
    · simp [State.setActivity, State.setChannel, channels, Pair.set_set, guardNs, now]
    · simp [State.setActivity, State.setChannel, Pair.set_set, Bank.settled, hs, hm]
  · rw [← banks] at hm hc ⊢
    rw [takeBank_at _ hm hc,
      settle_mismatch (ch := ch) (stage := .switching) (f := s.flightOf ch j) (by simp) (by simpa using activity)
        (by simp [hs, hc])]
    generalize hv : (u.setBank l { u.banks.get l with holder := some ch }).setBank l _ = v
    have hvd : v.directory = s.directory := by rw [← hv]; exact directory
    have hvt : v.timeBase = s.timeBase := by rw [← hv]; exact frame.same .timeBase (by decide)
    have hvc : v.channels = u.channels := by rw [← hv]; rfl
    have hvb : v.buffers = u.buffers := by rw [← hv]; rfl
    have hvk : v.banks = u.banks.set l
        { u.banks.get l with
          holder := none, sensed := senses.get l, service := .outOfService, mark := true, motion := .still } := by
      rw [← hv]
      simp [Pair.set_set, Bank.faulted]
    have ew := endWithOutcome_frame v (s.flightOf ch j).work .bankFault
    have gives := givesUp_dropFlight (v.endWithOutcome (s.flightOf ch j).work .bankFault) ch (s.flightOf ch j) .idle
    have hid : (s.flightOf ch j).work.id = j.id := by cases j <;> rfl
    refine ⟨_, startsAs_flightOf s ch j, ?_, rfl, ?_, fun m => ?_, fun i => ?_⟩
    · exact (ended_endWithOutcome v _ (by decide) (by decide)).congr hvd.symm hvt.symm rfl
    · rw [gives.channels, ew.same .channels (by decide), hvc, channels]
      simp [Pair.set_set]
    · rw [gives.banks m, ew.same .banks (by decide), hvk]
      by_cases hml : m = l
      · subst hml
        simp [hm]
      · rw [Pair.get_set_ne _ hml, if_neg hml]
    · rw [gives.buffers i, ew.same .buffers (by decide), hvb, hid]
      obtain ⟨x, y, ht, hstand⟩ := buffers
      have hx := ht.first
      by_cases hix : i = x
      · subst hix
        rw [hx.2, hx.1.2.1]
        simp [Option.filter]
      · by_cases hy : (s.flightOf ch j).plan = .dual ∧ i = y
        · obtain ⟨hd, rfl⟩ := hy
          rw [(ht.second hd).2, (ht.second hd).1.2.1]
          simp [Option.filter]
        · rw [hstand i hix (fun hd he => hy ⟨hd, he⟩)]

/-! ### A channel considered (R174, R176) -/

theorem eligible_of_find {s : State} {ch : Letter} {l : List Job} {j : Job} (h : l.find? (s.eligible ch) = some j) :
    s.eligible ch j = true := List.find?_some h

/-- Whatever is chosen for a channel is eligible for it. -/
theorem eligible_of_choose {s : State} {ch : Letter} {j : Job} (h : (s.choose ch).job = some j) :
    s.eligible ch j = true := by
  have cls (c : Fin 4) (h : s.classChoice ch c = some j) : s.eligible ch j = true := eligible_of_find h
  unfold State.choose at h
  split at h
  · rename_i k hk
    cases h
    rcases Option.or_eq_some_iff.mp hk with hk | ⟨_, hk⟩
    · rcases Option.or_eq_some_iff.mp hk with hk | ⟨_, hk⟩
      · unfold State.verifyChoice at hk
        split at hk
        · rename_i hv
          cases hk
          exact (Bool.and_eq_true_iff.mp hv).2
        · cases hk
      · exact eligible_of_find hk
    · obtain ⟨c, _, hc⟩ := List.exists_of_findSome?_eq_some hk
      exact cls c hc
  · unfold State.weightedChoice at h
    dsimp only at h
    split at h
    · exact cls _ h
    · split at h
      · exact cls _ h
      · cases h

/-- A job that is eligible for the channel is dispatched as R178 says. -/
theorem dispatchesTo_of_eligible {s : State} {ch : Letter} {j : Job} (senses : Pair (Option Nat)) (h : EligibleOn s ch j) :
    ∃ l position, NeedsPort s j l position ∧ DispatchesTo senses.get ch j l position s (s.dispatch ch j senses) := by
  obtain ⟨l, position, hn, _⟩ := h.bank
  refine ⟨l, position, hn, dispatchesTo_dispatch senses hn ?_⟩
  rw [← length_freeBuffers]
  exact h.buffers

theorem considers_considerChannel (s : State) (senses : Pair (Option Nat)) (ch : Letter) :
    Considers senses.get ch s (s.considerChannel senses ch) := by
  refine ⟨fun h => ?_, fun hi j hj => ?_⟩
  · unfold State.considerChannel
    rcases h with h | h
    · rw [if_neg (fun hc => h ((isIdle_iff _).mp hc))]
    · dsimp only
      rw [h]
      exact ite_self _
  · have he := (eligible_iff s ch j).mp (eligible_of_choose hj)
    have he' : EligibleOn { s with sched := (s.choose ch).sched } ch j :=
      he.congr rfl rfl rfl rfl (fun _ => rfl) (fun _ => rfl)
    obtain ⟨l, position, hn, hd⟩ := dispatchesTo_of_eligible senses he'
    refine ⟨l, position, hn.congr rfl, ?_⟩
    unfold State.considerChannel
    rw [if_pos ((isIdle_iff _).mpr hi)]
    dsimp only
    rw [hj]
    exact hd

/-! ### Pre-emption (R180, R181) -/

theorem aborts_abortChannel {s : State} {ch : Letter} {f : Flight} (h : (s.channels.get ch).activity.flight? = some f) :
    Aborts ch f s (s.abortChannel ch) := by
  cases ha : (s.channels.get ch).activity with
  | idle => rw [ha] at h; cases h
  | inhibited => rw [ha] at h; cases h
  | busy stage g =>
    rw [ha] at h
    cases h
    rw [abortChannel_busy ha]
    exact ⟨(dropFlight_frame ..).mono (by decide), givesUp_dropFlight ..⟩

/-- What R175 reads of a state after an abort is the same however the abort is written. -/
theorem EligibleOn.of_aborts {s u v : State} {ch : Letter} {f : Flight} {j : Job} (hu : Aborts ch f s u)
    (hv : Aborts ch f s v) (h : EligibleOn u ch j) : EligibleOn v ch j :=
  h.congr ((hu.frame.same .directory (by decide)).trans (hv.frame.same .directory (by decide)).symm)
    ((hu.frame.same .timeBase (by decide)).trans (hv.frame.same .timeBase (by decide)).symm)
    ((hu.frame.same .inputs (by decide)).trans (hv.frame.same .inputs (by decide)).symm)
    (hu.givesUp.channels.trans hv.givesUp.channels.symm)
    (fun l => (hu.givesUp.banks l).trans (hv.givesUp.banks l).symm)
    (fun i => (hu.givesUp.buffers i).trans (hv.givesUp.buffers i).symm)

theorem victimAt_eq_some {s : State} {demand : Nat} {ch : Letter} {v : Victim} :
    s.victimAt demand ch = some v ↔
      ∃ f, Qualifies s demand ch f v.cls v.span ∧ v.channel = ch ∧ v.dispatchTime = f.dispatchTime := by
  constructor
  · intro h
    unfold State.victimAt at h
    split at h
    · rename_i stage f ha
      split at h
      · rename_i c id rev hw
        split at h
        · rename_i hq
          cases h
          have hf : (s.channels.get ch).activity.flight? = some f := by rw [ha]; rfl
          have hq := Bool.and_eq_true_iff.mp hq
          exact ⟨f, ⟨hf, ⟨rev, hw⟩, hq.1, _, aborts_abortChannel hf, (eligible_iff _ _ _).mp hq.2⟩, rfl, rfl⟩
        · cases h
      · cases h
      · cases h
      · cases h
    · cases h
    · cases h
  · rintro ⟨f, ⟨hf, ⟨rev, hw⟩, hcls, u, hu, he⟩, hch, htime⟩
    cases ha : (s.channels.get ch).activity with
    | idle => rw [ha] at hf; cases hf
    | inhibited => rw [ha] at hf; cases hf
    | busy stage g =>
      have hg : g = f := by rw [ha] at hf; exact Option.some.inj hf
      subst hg
      have hv : (s.abortChannel ch).eligible ch (.test .demand demand) = true :=
        (eligible_iff _ _ _).mpr (he.of_aborts hu (aborts_abortChannel hf))
      unfold State.victimAt
      simp only [ha, hw, hcls, hv, Bool.and_self, if_true]
      cases v
      simp_all

theorem victimFor_eq_none {s : State} {demand : Nat} :
    s.victimFor demand = none ↔ ∀ ch f c id, ¬ Qualifies s demand ch f c id := by
  have none_iff (ch : Letter) : s.victimAt demand ch = none ↔ ∀ f c id, ¬ Qualifies s demand ch f c id := by
    constructor
    · intro h f c id hq
      have : s.victimAt demand ch = some ⟨ch, c, id, f.dispatchTime⟩ := victimAt_eq_some.mpr ⟨f, hq, rfl, rfl⟩
      rw [h] at this
      cases this
    · intro h
      cases hv : s.victimAt demand ch with
      | none => rfl
      | some v =>
        obtain ⟨f, hq, _⟩ := victimAt_eq_some.mp hv
        exact absurd hq (h f _ _)
  have both : s.victimFor demand = none ↔ s.victimAt demand .A = none ∧ s.victimAt demand .B = none := by
    unfold State.victimFor
    cases s.victimAt demand .A <;> cases s.victimAt demand .B <;> simp
    split <;> simp
  rw [both, none_iff, none_iff]
  constructor
  · rintro ⟨ha, hb⟩ ch
    cases ch
    · exact ha
    · exact hb
  · exact fun h => ⟨h .A, h .B⟩

theorem isVictim_of_victimFor {s : State} {demand : Nat} {v : Victim} (h : s.victimFor demand = some v) :
    ∃ f, IsVictim s demand v.channel f v.cls v.span ∧ f.dispatchTime = v.dispatchTime := by
  have known {ch : Letter} {g : Flight} {k : Fin 4} {i : Nat} (hq : Qualifies s demand ch g k i) :
      s.victimAt demand ch = some ⟨ch, k, i, g.dispatchTime⟩ := victimAt_eq_some.mpr ⟨g, hq, rfl, rfl⟩
  unfold State.victimFor at h
  split at h
  · rename_i a b ha hb
    obtain ⟨f, hqa, hca, hta⟩ := victimAt_eq_some.mp ha
    obtain ⟨g, hqb, hcb, htb⟩ := victimAt_eq_some.mp hb
    split at h
    · rename_i hlt
      cases h
      refine ⟨g, ⟨by rw [hcb]; exact hqb, fun other x k i hne hq => ?_⟩, htb.symm⟩
      cases other with
      | B => exact absurd hcb.symm hne
      | A =>
        have := known hq
        rw [ha] at this
        cases this
        rcases hlt with hlt | ⟨he, hle⟩
        · exact Or.inl hlt
        · refine Or.inr ⟨he, ?_⟩
          rcases Nat.lt_or_eq_of_le hle with hl | hl
          · exact Or.inl (by rw [← htb]; exact hl)
          · exact Or.inr ⟨by rw [← htb]; exact hl, hcb⟩
    · rename_i hlt
      cases h
      refine ⟨f, ⟨by rw [hca]; exact hqa, fun other x k i hne hq => ?_⟩, hta.symm⟩
      cases other with
      | A => exact absurd hca.symm hne
      | B =>
        have := known hq
        rw [hb] at this
        cases this
        rw [not_or] at hlt
        rcases lt_trichotomy k v.cls with hk | hk | hk
        · exact Or.inl hk
        · exact Or.inr ⟨hk, Or.inl (by rw [← hta]; exact Nat.lt_of_not_le fun hle => hlt.2 ⟨hk.symm, hle⟩)⟩
        · exact absurd hk hlt.1
  · rename_i a ha hb
    cases h
    obtain ⟨f, hq, hc, ht⟩ := victimAt_eq_some.mp ha
    refine ⟨f, ⟨by rw [hc]; exact hq, fun other x k i hne hq' => ?_⟩, ht.symm⟩
    cases other with
    | A => exact absurd hc.symm hne
    | B =>
      have := known hq'
      rw [hb] at this
      cases this
  · rename_i b ha hb
    cases h
    obtain ⟨f, hq, hc, ht⟩ := victimAt_eq_some.mp hb
    refine ⟨f, ⟨by rw [hc]; exact hq, fun other x k i hne hq' => ?_⟩, ht.symm⟩
    cases other with
    | B => exact absurd hc.symm hne
    | A =>
      have := known hq'
      rw [ha] at this
      cases this
  · cases h

theorem preempts_preemptFor (senses : Pair (Option Nat)) (s : State) (demand : Nat) :
    Preempts senses.get demand s (State.preemptFor senses s demand) := by
  unfold State.preemptFor
  cases hv : s.victimFor demand with
  | none => exact Or.inl ⟨victimFor_eq_none.mp hv, rfl⟩
  | some v =>
    obtain ⟨f, hvictim, _⟩ := isVictim_of_victimFor hv
    obtain ⟨u, hu, he⟩ := hvictim.qualifies.eligible
    have abort := aborts_abortChannel hvictim.qualifies.runs
    have spans : ((s.abortChannel v.channel).findSpan v.span) = s.findSpan v.span := by
      unfold State.findSpan State.spans
      rw [abort.frame.same .directory (by decide)]
    have he1 := he.of_aborts hu abort
    have requeue : Aborts v.channel f s ((s.abortChannel v.channel).requeueScheduled v.cls v.span) :=
      ⟨abort.frame.trans ((requeueScheduled_frame _ _ _).mono (by decide)),
        ⟨abort.givesUp.channels, abort.givesUp.buffers, abort.givesUp.banks⟩⟩
    obtain ⟨l, position, hn, hd⟩ := dispatchesTo_of_eligible senses (he1.of_aborts abort requeue)
    refine Or.inr ⟨v.channel, f, v.cls, v.span, _, _, l, position, hvictim, requeue, rfl, ?_, hn, hd⟩
    have sched : (s.abortChannel v.channel).sched = { s.sched with dispatchCalled := true } := by
      cases ha : (s.channels.get v.channel).activity with
      | idle => exact absurd hvictim.qualifies.runs (by simp [ha, Activity.flight?])
      | inhibited => exact absurd hvictim.qualifies.runs (by simp [ha, Activity.flight?])
      | busy stage g => rw [abortChannel_busy ha]; rfl
    unfold State.requeueScheduled
    rw [State.headOfClassQueue_sched, spans, sched]

theorem preemptsInTurn_foldl (senses : Pair (Option Nat)) (l : List Nat) (s : State) :
    PreemptsInTurn senses.get l s (l.foldl (State.preemptFor senses) s) := by
  induction l generalizing s with
  | nil => rfl
  | cons d l ih => exact ⟨_, preempts_preemptFor senses s d, ih _⟩

/-! ### The pass, and the window open that holds one -/

theorem sensesOf_eq (a b : Sense) : sensesOf a b = (senseValues a b).get := by
  funext l
  cases l <;> rfl

theorem passes_dispatchPass (s : State) (senses : Pair (Option Nat)) :
    Passes senses.get s (s.dispatchPass senses) := by
  let s0 : State := { s with sched := { s.sched with dispatchCalled := false } }
  let s1 := s0.considerChannel senses .A
  let s2 := s1.considerChannel senses .B
  refine ⟨s1, s2, s2.preempt senses, considers_considerChannel .., considers_considerChannel .., ?_, ?_⟩
  · unfold State.preempt
    split
    · exact preemptsInTurn_foldl ..
    · rfl
  · have h : (s2.preempt senses).now = s.now :=
      (((considerChannel_frame s0 senses .A).trans (considerChannel_frame s1 senses .B)).trans
        (preempt_frame s2 senses)).same .now (by decide)
    exact h ▸ rfl

theorem passSenses_eq (n : Nat) : passSenses n = (senseValues (Config.senseA n) (Config.senseB n)).get := sensesOf_eq ..

theorem windowOpens_raiseWindow (s : State) : WindowOpens s s.raiseWindow := by
  refine ⟨rfl, by simp [State.raiseWindow, wrapSucc], fun c => ?_, fun ch => ?_, fun c => ?_, rfl, rfl⟩
  · have h : s.queuesAtOpen (wrapSucc s.timeBase.windowNumber) c = fun r => decide (r.state = .active ∧ r.cls = c ∧
        wrapSucc s.timeBase.windowNumber % r.interval = r.phase ∧ s.jobPlace r.id = none) := by
      funext r
      rw [Bool.eq_iff_iff, decide_eq_true_eq]
      simp only [State.queuesAtOpen, SpanRecord.due, Bool.and_eq_true, beq_iff_eq, Option.isNone_iff_eq_none]
      tauto
    have hq : s.raiseWindow.sched.classQueues.get c = s.openedQueue (wrapSucc s.timeBase.windowNumber) c := by
      fin_cases c <;> rfl
    rw [hq, State.openedQueue, h]
    rfl
  · cases ch <;> rfl
  · fin_cases c <;> rfl

/-! ### The spans held together with a window open (R14) -/

theorem mem_heldTogether (s : State) (id : Nat) : id ∈ s.heldTogether ↔ HeldTogether s id := by
  unfold State.heldTogether
  constructor
  · intro h
    split at h
    · rename_i k rest hp
      split at h
      · rename_i hc
        obtain rfl := List.mem_singleton.mp h
        simp only [Bool.and_eq_true, Option.any_eq_true, beq_iff_eq] at hc
        exact ⟨hc.1, hc.2, k, rest, hp, rfl⟩
      · exact absurd h List.not_mem_nil
    · exact absurd h List.not_mem_nil
  · rintro ⟨hr, ⟨r, hf, ha⟩, k, rest, hp, rfl⟩
    simp [hp, hr, hf, ha]

theorem becomes_setAside (s : State) (ids : List Nat) :
    ClassQueuesBecome (fun _ q => q.filter (fun i => !ids.contains i)) s (s.setAside ids) :=
  ⟨setAside_frame .., rfl, fun c => by simp [State.setAside]⟩

theorem becomes_putBack (s : State) (ids : List Nat) (queues : Quad (List Nat)) :
    ClassQueuesBecome (fun c q => q ++ (queues.get c).filter (fun i => ids.contains i)) s (s.putBack ids queues) :=
  ⟨putBack_frame .., rfl, fun c => by fin_cases c <;> rfl⟩

/-- A window open from `u0`, which differs from `s` as the command that opens the window made it differ. -/
theorem opens_openWindow {s u0 t : State} {held : List Nat} {parts : List Part} {now : Nat}
    (hw : WindowOpens s u0.raiseWindow) (hn : u0.now = now) (hk : KeepsBut (.draws :: parts) s u0.raiseWindow.drawn)
    (hd : u0.draws = s.draws) (ht : KeepsBut [.link] (u0.openWindow held) t) : OpensAndPasses held parts now s t := by
  let opened := u0.raiseWindow.drawn
  unfold OpensAndPasses
  rw [← hd, passSenses_eq]
  exact ⟨opened, opened.setAside held, (opened.setAside held).dispatchPass u0.drawnSenses, u0.openWindow held,
    ⟨hw.open_, hw.number, hw.queues, hw.verify, hw.credits, hw.demand, hw.called⟩, hn, hk, rfl,
    becomes_setAside .., passes_dispatchPass .., becomes_putBack .., ht⟩

end Sys2Proof.Machine
end

