-- ==== Sys2Proof/Laws/Exchange.lean ====
section
/-! SUPPORT. What an exchange does, said once: the answer it leaves and the parts it changes, from what the act does. -/

namespace Sys2Proof.Machine

theorem exchange_of_ready {s : State} {n : Nat} {act : State → State × Reply} (h : s.ready = true) :
    s.exchange n act = ((act s.discardPending).1).respond n (act s.discardPending).2 := by
  simp [State.exchange, h]

theorem exchange_of_not_ready {s : State} {n : Nat} {act : State → State × Reply} (h : s.ready = false) :
    s.exchange n act = s.ignorePeriod n := by
  simp [State.exchange, h]

/-- An answer formed from a state whose link is as the discard left it, but for its enables. -/
theorem answeredWith_respond {s u : State} {n : Nat} {r : Reply} {e : Enables}
    (h : u.link = { s.discardPending.link with enables := e }) :
    AnsweredWith e s (u.respond n r) r.status r.body := by
  refine ⟨rfl, ?_, rfl, ?_, ?_, ?_⟩
  · have ha : (u.respond n r).attn = u.attn := rfl
    rw [ha]
    simp [State.respond, Link.withResponse, h, State.discardPending, Link.discard]
  · simp [State.respond, Link.withResponse, h]
  · simp [State.respond, Link.withResponse, h, State.discardPending, Link.discard]
  · intro b hb
    exact List.eq_of_mem_replicate hb

theorem answered_respond {s u : State} {n : Nat} {r : Reply} (h : u.link = s.discardPending.link) :
    Answered s (u.respond n r) r.status r.body :=
  answeredWith_respond (e := s.link.enables) (by rw [h]; rfl)

theorem keepsBut_respond {l : List Part} {s u : State} {n : Nat} {r : Reply} (hl : .link ∈ l)
    (h : KeepsBut l s.discardPending u) : KeepsBut l s (u.respond n r) := by
  refine ⟨fun p hp => ?_⟩
  have := h.same p hp
  cases p <;> first | exact this | exact absurd hl hp

theorem discardPending_frame (s : State) : KeepsBut [.link] s s.discardPending := by
  refine ⟨fun p hp => ?_⟩
  cases p <;> first | rfl | simp at hp

theorem ignorePeriod_frame (s : State) (n : Nat) : KeepsBut [.link] s (s.ignorePeriod n) := by
  refine ⟨fun p hp => ?_⟩
  cases p <;> first | rfl | simp at hp

/-! What the acts read is as it was before the discard. -/

@[simp] theorem discardPending_spans (s : State) : s.discardPending.spans = s.spans := rfl

@[simp] theorem discardPending_findSpan (s : State) (id : Nat) : s.discardPending.findSpan id = s.findSpan id := rfl

@[simp] theorem discardPending_boundTo (s : State) (l : Letter) (p : Nat) :
    s.discardPending.boundTo l p = s.boundTo l p := rfl

@[simp] theorem discardPending_present (s : State) (l : Letter) : s.discardPending.present l = s.present l := by
  cases l <;> rfl

@[simp] theorem discardPending_poolFree (s : State) : s.discardPending.poolFree = s.poolFree := rfl

@[simp] theorem discardPending_jobPlace (s : State) (id : Nat) : s.discardPending.jobPlace id = s.jobPlace id := rfl

@[simp] theorem discardPending_jobPastQueued (s : State) (id : Nat) :
    s.discardPending.jobPastQueued id = s.jobPastQueued id := rfl

@[simp] theorem discardPending_jobQueued (s : State) (id : Nat) : s.discardPending.jobQueued id = s.jobQueued id := rfl

@[simp] theorem discardPending_findCondition (s : State) (tag : Nat) :
    s.discardPending.findCondition tag = s.findCondition tag := rfl

/-- A request whose act leaves the state and answers a refusal is turned away. -/
theorem turnsAway_of_act {i : Instr} {s : State} {n : Nat} {act : State → State × Reply} {status : Status}
    (hr : s.ready = true) (he : exec i s = .next (s.exchange n act))
    (ha : act s.discardPending = (s.discardPending, Reply.refusal status)) : TurnsAway i s status := by
  refine ⟨_, he, ?_⟩
  rw [exchange_of_ready hr, ha]
  exact ⟨answered_respond (r := Reply.refusal status) rfl, keepsBut_respond (by simp) (.refl ..)⟩

/-- A request whose act leaves the state and answers OK reads out its body. -/
theorem readsOut_of_act {i : Instr} {s : State} {n : Nat} {act : State → State × Reply} {body : List Byte}
    (hr : s.ready = true) (he : exec i s = .next (s.exchange n act))
    (ha : act s.discardPending = (s.discardPending, { status := .ok, body := body })) : ReadsOut i s body := by
  refine ⟨_, he, ?_⟩
  rw [exchange_of_ready hr, ha]
  exact ⟨answered_respond (r := { status := .ok, body := body }) rfl, keepsBut_respond (by simp) (.refl ..)⟩

/-- A request whose act leads to `u` is answered from `u`. -/
theorem exec_of_act {i : Instr} {s u : State} {n : Nat} {act : State → State × Reply} {r : Reply} {l : List Part}
    (hr : s.ready = true) (he : exec i s = .next (s.exchange n act)) (ha : act s.discardPending = (u, r))
    (hk : KeepsBut l s.discardPending u) (hl : .link ∉ l) :
    exec i s = .next (u.respond n r) ∧ Answered s (u.respond n r) r.status r.body ∧
      KeepsBut (.link :: l) s (u.respond n r) := by
  refine ⟨?_, ?_, ?_⟩
  · rw [he, exchange_of_ready hr, ha]
  · exact answered_respond (hk.same .link hl)
  · exact keepsBut_respond (by simp) (hk.mono (by simp; intro p hp; exact Or.inr hp))

end Sys2Proof.Machine
end

