-- ==== Sys2Proof/Laws/Layout.lean ====
section
/-! SUPPORT. The lengths of the record bodies, the reading back of the link's numbers, and the fields of the unit bodies at
their offsets. -/

namespace Sys2Proof

@[simp] theorem be16_length (n : Nat) : (be16 n).length = 2 := rfl

@[simp] theorem be32_length (n : Nat) : (be32 n).length = 4 := rfl

@[simp] theorem split16_length (x : U16) : (split16 x).length = 2 := rfl

@[simp] theorem split32_length (x : U32) : (split32 x).length = 4 := rfl

theorem byte_toNat (n : Nat) : (byte n).toNat = n % 256 := by simp [byte]

@[simp] theorem byte_of_toNat (b : Byte) : byte b.toNat = b := by simp [byte]

theorem join16_toNat (hi lo : Byte) : (join16 hi lo).toNat = 256 * hi.toNat + lo.toNat := by
  have h1 := hi.isLt
  have h2 := lo.isLt
  simp only [join16, BitVec.toNat_ofNat]
  omega

theorem join32_toNat (b3 b2 b1 b0 : Byte) :
    (join32 b3 b2 b1 b0).toNat = 16777216 * b3.toNat + 65536 * b2.toNat + 256 * b1.toNat + b0.toNat := by
  have h3 := b3.isLt
  have h2 := b2.isLt
  have h1 := b1.isLt
  have h0 := b0.isLt
  simp only [join32, BitVec.toNat_ofNat]
  omega

/-- The two bytes of a number below 65536 spell it. -/
theorem join16_be16 {n : Nat} (h : n < 65536) : (join16 (byte (n / 256)) (byte n)).toNat = n := by
  rw [join16_toNat, byte_toNat, byte_toNat]
  omega

/-- The four bytes of a number below 2 to the power 32 spell it. -/
theorem join32_be32 {n : Nat} (h : n < 4294967296) :
    (join32 (byte (n / 16777216)) (byte (n / 65536)) (byte (n / 256)) (byte n)).toNat = n := by
  rw [join32_toNat, byte_toNat, byte_toNat, byte_toNat, byte_toNat]
  omega

/-- A 2-byte field is read back from its bytes. -/
theorem join16_split16 (x : U16) : join16 (byte (x.toNat / 256)) (byte x.toNat) = x :=
  BitVec.eq_of_toNat_eq (join16_be16 x.isLt)

/-- A 4-byte field is read back from its bytes. -/
theorem join32_split32 (x : U32) :
    join32 (byte (x.toNat / 16777216)) (byte (x.toNat / 65536)) (byte (x.toNat / 256)) (byte x.toNat) = x :=
  BitVec.eq_of_toNat_eq (join32_be32 x.isLt)

namespace Machine

theorem flagBit_eq_getLsbD (b : Byte) (i : Nat) : flagBit b i = b.getLsbD i := by
  simp only [flagBit, BitVec.getLsbD, Nat.testBit, Nat.shiftRight_eq_div_pow, Nat.one_and_eq_mod_two]
  rcases Nat.mod_two_eq_zero_or_one (b.toNat / 2 ^ i) with h | h <;> simp [h]

@[simp] theorem endDistanceBytes_length (d : Option Nat) : (endDistanceBytes d).length = 4 := by cases d <;> rfl

@[simp] theorem spanRecordBytes_length (r : SpanRecord) : (spanRecordBytes r).length = 38 := by
  simp [spanRecordBytes, clampedFieldBytes]

@[simp] theorem landmarkBytes_length (m : Landmark) : (landmarkBytes m).length = 9 := by simp [landmarkBytes]

@[simp] theorem conditionBytes_length (c : Condition) : (conditionBytes c).length = 19 := by simp [conditionBytes]

@[simp] theorem profileBytes_length (n : Nat) (p : Profile) : (profileBytes n p).length = 11 := by simp [profileBytes]

@[simp] theorem timeBaseBytes_length (t : TimeBase) : (timeBaseBytes t).length = 15 := by simp [timeBaseBytes]

@[simp] theorem thresholdBytes_length (t : Thresholds) : (thresholdBytes t).length = 4 := by simp [thresholdBytes]

@[simp] theorem channelJobBytes_length (f : Option Flight) : (channelJobBytes f).length = 4 := by cases f <;> rfl

@[simp] theorem channelUnitBytes_length (s : State) (l : Letter) : (channelUnitBytes s l).length = 9 := by
  simp [channelUnitBytes]

@[simp] theorem bankUnitBytes_length (s : State) (l : Letter) : (bankUnitBytes s l).length = 13 := by
  simp [bankUnitBytes]

@[simp] theorem spanEntryBytes_length (e : Entry) : (spanEntryBytes e).length = 16 := by
  cases e <;> simp [spanEntryBytes]

@[simp] theorem quad_toList_length {α : Type} (q : Quad α) : q.toList.length = 4 := rfl

theorem statusSummaryBytes_length (s : State) : (statusSummaryBytes s).length = 86 := by
  simp [statusSummaryBytes]

/-! ### Fields at their offsets -/

/-- A field of a part of a body stands in the body at the part's offset and its own. -/
theorem HasAt.within {part field : List Byte} {k o : Nat} (before after : List Byte) (hk : before.length = k)
    (ho : o + field.length ≤ part.length) (h : HasAt part o field) : HasAt (before ++ part ++ after) (k + o) field := by
  subst hk
  unfold HasAt at *
  rw [List.append_assoc, ← List.drop_drop, List.drop_left, List.drop_append_of_le_length (by omega),
    List.take_append_of_le_length (by simp; omega)]
  exact h

theorem channelUnitAt_of_append (s : State) (l : Letter) (before after : List Byte) {k : Nat} (hk : before.length = k) :
    ChannelUnitAt s l (before ++ channelUnitBytes s l ++ after) k := by
  have within (o : Nat) (field : List Byte) (ho : o + field.length ≤ 9) (h : HasAt (channelUnitBytes s l) o field) :=
    HasAt.within before after hk (by rw [channelUnitBytes_length]; exact ho) h
  constructor
  · exact within 0 _ (by simp) (by cases l <;> rfl)
  all_goals first
    | (intros; refine within _ _ (by simp [be16]) ?_
       simp_all [HasAt, channelUnitBytes, activityCode, channelJobBytes, Activity.flight?, workKindCode, workSpan, be16,
         planCode, byte]; done)
    | (refine within _ _ (by simp) ?_
       cases h : (s.channels.get l).activity.flight? <;>
         simp [HasAt, channelUnitBytes, channelJobBytes, h, be16, yesNo, boolByte])
    | skip
  · intro f hf
    refine within _ _ (by simp) ?_
    simp only [HasAt, channelUnitBytes, channelJobBytes, hf, be16]
    cases f.plan <;> rfl

theorem bankUnitAt_of_append (s : State) (l : Letter) (before after : List Byte) {k : Nat} (hk : before.length = k) :
    BankUnitAt s l (before ++ bankUnitBytes s l ++ after) k := by
  have within (o : Nat) (field : List Byte) (ho : o + field.length ≤ 13) (h : HasAt (bankUnitBytes s l) o field) :=
    HasAt.within before after hk (by rw [bankUnitBytes_length]; exact ho) h
  constructor
  · exact within 0 _ (by simp) (by cases l <;> rfl)
  · exact within 1 _ (by simp) rfl
  · exact within 2 _ (by simp) (by
      cases h : (s.banks.get l).service <;> simp [HasAt, bankUnitBytes, h, serviceCode, byte])
  · refine within 3 _ (by simp) ?_
    cases h : (s.banks.get l).holder with
    | none => simp [HasAt, bankUnitBytes, h, holderCode, byte]
    | some c => cases c <;> simp [HasAt, bankUnitBytes, h, holderCode, byte]
  · exact within 4 _ (by simp) rfl
  · exact within 5 _ (by simp) (by
      cases h : (s.banks.get l).motion <;> simp [HasAt, bankUnitBytes, h, motionCode, byte])
  · exact within 6 _ (by simp) (by
      cases h : (s.banks.get l).sensed <;> simp [HasAt, bankUnitBytes, h, sensedByte])
  · exact within 7 _ (by simp [be16, be32]) (by simp [HasAt, bankUnitBytes, be16, be32])

end Machine

end Sys2Proof
end

