-- ==== Sys2Proof/Laws/Frames.lean ====
section
/-! SUPPORT. Request frames: a frame whose code and declared length fit a row passes the checks. -/

namespace Sys2Proof

theorem requestRow_of_mem {row : RequestRow} {code : Byte} (h : row ∈ requestRows) (hc : row.code = code.toNat) :
    requestRow code = some row := by
  have hn : (requestRows.map RequestRow.code).Nodup := by decide
  unfold requestRow
  cases hf : requestRows.find? (fun r => r.code == code.toNat) with
  | none => simpa [hc] using List.find?_eq_none.mp hf row h
  | some q =>
    have hi : q.code = code.toNat := by simpa using List.find?_some hf
    rw [List.inj_on_of_nodup_map hn (List.mem_of_find?_eq_some hf) h (hi.trans hc.symm)]

theorem requestRow_eq_none {code : Byte} (h : ∀ row ∈ requestRows, row.code ≠ code.toNat) : requestRow code = none :=
  List.find?_eq_none.mpr (by intro r hr; simpa using h r hr)

theorem checkFrame_of_row {row : RequestRow} {code : Byte} {body : List Byte} (hr : requestRow code = some row)
    (hl : body.length ≤ 512) (hb : row.body = .fixed body.length ∨ row.body = .counted) :
    checkFrame ([code] ++ be16 body.length ++ body) = .passed code body := by
  have hd : (join16 (byte (body.length / 256)) (byte body.length)).toNat = body.length := join16_be16 (by omega)
  simp only [be16, List.cons_append, List.nil_append, checkFrame, hr, hd, lt_self_iff_false, if_false, if_pos hb,
    Nat.not_lt.mpr hl, List.take_length]

/-- A frame whose code and declared length fit a row is read by its body. -/
theorem decodeFrame_of_row {row : RequestRow} {code : Byte} {body : List Byte} (sense : Sense)
    (hr : requestRow code = some row) (h0 : code ≠ 0) (hl : body.length ≤ 512)
    (hb : row.body = .fixed body.length ∨ row.body = .counted) :
    decodeFrame sense ([code] ++ be16 body.length ++ body) = parseRequest sense code body := by
  unfold decodeFrame
  rw [checkFrame_of_row hr hl hb]
  exact if_neg h0

end Sys2Proof
end

