-- ==== Sys2Proof/Laws/Lists.lean ====
section
/-! SUPPORT. What the shared list operations do, said once: ordering by a key, the fresh tag, and the oldest of some
conditions. -/

namespace Sys2Proof.Machine

/-! ### Ordering by a key -/

variable {α : Type}

theorem perm_insertBy (le : α → α → Bool) (x : α) (l : List α) : (insertBy le x l).Perm (x :: l) := by
  induction l with
  | nil => exact List.Perm.refl _
  | cons y ys ih =>
    unfold insertBy
    split
    · exact List.Perm.refl _
    · exact (ih.cons y).trans (List.Perm.swap x y ys)

theorem perm_sortBy (le : α → α → Bool) (l : List α) : (sortBy le l).Perm l := by
  induction l with
  | nil => exact List.Perm.refl _
  | cons x l ih => exact (perm_insertBy le x (sortBy le l)).trans (ih.cons x)

theorem mem_sortBy (le : α → α → Bool) (l : List α) (x : α) : x ∈ sortBy le l ↔ x ∈ l := (perm_sortBy le l).mem_iff

theorem length_sortBy (le : α → α → Bool) (l : List α) : (sortBy le l).length = l.length := (perm_sortBy le l).length_eq

theorem pairwise_insertBy {le : α → α → Bool} (total : ∀ a b, le a b = true ∨ le b a = true)
    (trans : ∀ a b c, le a b = true → le b c = true → le a c = true) (x : α) {l : List α}
    (h : l.Pairwise (fun a b => le a b = true)) : (insertBy le x l).Pairwise (fun a b => le a b = true) := by
  induction l with
  | nil => exact List.pairwise_singleton _ _
  | cons y ys ih =>
    have hy := List.pairwise_cons.mp h
    unfold insertBy
    split
    · rename_i hx
      refine List.pairwise_cons.mpr ⟨fun a ha => ?_, h⟩
      rcases List.mem_cons.mp ha with rfl | ha
      · exact hx
      · exact trans _ _ _ hx (hy.1 a ha)
    · rename_i hx
      refine List.pairwise_cons.mpr ⟨fun a ha => ?_, ih hy.2⟩
      rcases List.mem_cons.mp ((perm_insertBy le x ys).mem_iff.mp ha) with rfl | ha
      · exact (total y a).resolve_right hx
      · exact hy.1 a ha

/-- The result is in order, for a total and transitive `le`. -/
theorem pairwise_sortBy {le : α → α → Bool} (total : ∀ a b, le a b = true ∨ le b a = true)
    (trans : ∀ a b c, le a b = true → le b c = true → le a c = true) (l : List α) :
    (sortBy le l).Pairwise (fun a b => le a b = true) := by
  induction l with
  | nil => exact List.Pairwise.nil
  | cons x l ih => exact pairwise_insertBy total trans x ih

theorem filter_insertBy {le : α → α → Bool} {p : α → Bool} (same : ∀ a b, p a = true → p b = true → le a b = true)
    (x : α) (l : List α) : (insertBy le x l).filter p = (x :: l).filter p := by
  induction l with
  | nil => rfl
  | cons y ys ih =>
    unfold insertBy
    split
    · rfl
    · rename_i hx
      by_cases hp : p x = true
      · have hy : ¬ p y = true := fun hy => hx (same x y hp hy)
        simp [ih, hy, hp]
      · simp [List.filter_cons, ih, hp]

/-- Entries of one key keep the order they stood in. -/
theorem filter_sortBy {le : α → α → Bool} {p : α → Bool} (same : ∀ a b, p a = true → p b = true → le a b = true)
    (l : List α) : (sortBy le l).filter p = l.filter p := by
  induction l with
  | nil => rfl
  | cons x l ih =>
    have h : sortBy le (x :: l) = insertBy le x (sortBy le l) := rfl
    rw [h, filter_insertBy same, List.filter_cons, List.filter_cons, ih]

/-! ### The oldest condition (R140) -/

/-- `oldest` finds the oldest, and none only among none. -/
theorem isOldest_oldest (window : Nat) (l : List Condition) :
    match oldest window l with
    | none => l = []
    | some d => IsOldest window (fun _ => True) l d := by
  induction l with
  | nil => rfl
  | cons c cs ih =>
    unfold oldest
    cases ho : oldest window cs with
    | none =>
      rw [ho] at ih
      subst ih
      exact ⟨[], [], rfl, trivial, by simp, by simp⟩
    | some d =>
      rw [ho] at ih
      obtain ⟨before, after, rfl, _, h1, h2⟩ := ih
      by_cases hlt : c.age window < d.age window
      · simp only [if_pos hlt]
        refine ⟨c :: before, after, rfl, trivial, fun e he _ => ?_, h2⟩
        rcases List.mem_cons.mp he with rfl | he
        · exact hlt
        · exact h1 e he trivial
      · simp only [if_neg hlt]
        refine ⟨[], before ++ d :: after, rfl, trivial, by simp, fun e he _ => ?_⟩
        have hd : d.age window ≤ c.age window := Nat.le_of_not_lt hlt
        rcases List.mem_append.mp he with he | he
        · exact (Nat.le_of_lt (h1 e he trivial)).trans hd
        · rcases List.mem_cons.mp he with rfl | he
          · exact hd
          · exact (h2 e he trivial).trans hd

/-! ### The fresh tag (R142) -/

/-- The search ends at a value that is neither 0 nor in use, or has passed over `fuel` values. -/
theorem nextTag_fresh_or (inUse : List Nat) (fuel t : Nat) :
    (nextTag inUse fuel t ≠ 0 ∧ nextTag inUse fuel t ∉ inUse) ∨
      ∀ k, k < fuel → wrapSucc^[k] t = 0 ∨ wrapSucc^[k] t ∈ inUse := by
  induction fuel generalizing t with
  | zero => exact Or.inr fun k hk => absurd hk (Nat.not_lt_zero k)
  | succ fuel ih =>
    unfold nextTag
    by_cases h : t = 0 ∨ t ∈ inUse
    · have hb : (t == 0 || inUse.contains t) = true := by simpa using h
      rw [if_pos hb]
      rcases ih (wrapSucc t) with h1 | h1
      · exact Or.inl h1
      · refine Or.inr fun k hk => ?_
        cases k with
        | zero => exact h
        | succ k => exact h1 k (Nat.lt_of_succ_lt_succ hk)
    · have hb : ¬ (t == 0 || inUse.contains t) = true := by simpa using h
      rw [if_neg hb]
      exact Or.inl ⟨fun h0 => h (Or.inl h0), fun hm => h (Or.inr hm)⟩

theorem wrapSucc_iterate (k t : Nat) (hk : 0 < k) : wrapSucc^[k] t = (t + k) % 65536 := by
  induction k with
  | zero => exact absurd hk (Nat.lt_irrefl 0)
  | succ k ih =>
    rw [Function.iterate_succ_apply']
    by_cases h0 : k = 0
    · subst h0; rfl
    · rw [ih (Nat.pos_of_ne_zero h0)]
      unfold wrapSucc
      omega

/-- A table with room for one more condition has a tag for it that is neither 0 nor in use (R142). -/
theorem freshTag_fresh (conditions : List Condition) (counter : Nat) (h : conditions.length < 96) :
    freshTag conditions counter ≠ 0 ∧ ∀ c ∈ conditions, c.tag ≠ freshTag conditions counter := by
  rcases nextTag_fresh_or (conditions.map Condition.tag) (conditions.length + 2) counter with h1 | h1
  · exact ⟨h1.1, fun c hc he => h1.2 (List.mem_map.mpr ⟨c, hc, he⟩)⟩
  · exfalso
    have sub : (Finset.range (conditions.length + 2)).image (fun k => wrapSucc^[k] counter) ⊆
        insert 0 (conditions.map Condition.tag).toFinset := by
      intro v hv
      obtain ⟨k, hk, rfl⟩ := Finset.mem_image.mp hv
      rcases h1 k (Finset.mem_range.mp hk) with h | h
      · simp [h]
      · exact Finset.mem_insert_of_mem (List.mem_toFinset.mpr h)
    have inj : Set.InjOn (fun k => wrapSucc^[k] counter) (Finset.range (conditions.length + 2) : Set Nat) := by
      intro i hi k hk he
      simp only [Finset.coe_range, Set.mem_Iio] at hi hk
      by_contra hne
      rcases Nat.eq_zero_or_pos i with rfl | hi0
      · have := wrapSucc_iterate k counter (by omega)
        simp only [Function.iterate_zero, id_eq] at he
        omega
      · rcases Nat.eq_zero_or_pos k with rfl | hk0
        · have := wrapSucc_iterate i counter hi0
          simp only [Function.iterate_zero, id_eq] at he
          omega
        · have h2 := wrapSucc_iterate i counter hi0
          have h3 := wrapSucc_iterate k counter hk0
          simp only at he
          omega
    have card := Finset.card_le_card sub
    rw [Finset.card_image_of_injOn inj, Finset.card_range] at card
    have c1 := Finset.card_insert_le 0 (conditions.map Condition.tag).toFinset
    have c2 := List.toFinset_card_le (conditions.map Condition.tag)
    rw [List.length_map] at c2
    omega

end Sys2Proof.Machine
end

