-- ==== Sys2Proof/Laws/Learn.lean ====
section
/-! SUPPORT. What the learned list of a result holds, said in the vocabulary of the statements. -/

namespace Sys2Proof.Machine

/-! ### Selection and order (R135, steps 1 and 2) -/

theorem selectedBefore_iff (e d : Event) : selectedBefore e d = true ↔ SelectedNoLater e d := by
  simp only [selectedBefore, SelectedNoLater, eventKey, Bool.or_eq_true, Bool.and_eq_true, decide_eq_true_eq, beq_iff_eq,
    eq_comm (a := max e.loss e.height)]
  exact or_congr ⟨of_decide_eq_true, decide_eq_true⟩ Iff.rfl

theorem placedBefore_iff (a b : Event) :
    placedBefore a b = true ↔ (a.distance < b.distance ∨ (a.distance = b.distance ∧ a.location ≤ b.location)) := by
  simp [placedBefore]

theorem selectedBefore_total (e d : Event) : selectedBefore e d = true ∨ selectedBefore d e = true := by
  rw [selectedBefore_iff, selectedBefore_iff]
  unfold SelectedNoLater
  omega

theorem selectedBefore_trans (a b c : Event) (h : selectedBefore a b = true) (k : selectedBefore b c = true) :
    selectedBefore a c = true := by
  rw [selectedBefore_iff] at *
  unfold SelectedNoLater at *
  omega

theorem placedBefore_total (a b : Event) : placedBefore a b = true ∨ placedBefore b a = true := by
  rw [placedBefore_iff, placedBefore_iff]
  omega

theorem placedBefore_trans (a b c : Event) (h : placedBefore a b = true) (k : placedBefore b c = true) :
    placedBefore a c = true := by
  rw [placedBefore_iff] at *
  omega

/-- The events that a learn keeps, in the order of R135. -/
def keptOf (events : List Event) : List Event := sortBy placedBefore ((sortBy selectedBefore events).take 31)

theorem keptEvents_keptOf (events : List Event) :
    KeptEvents events (keptOf events) ((sortBy selectedBefore events).drop 31) := by
  refine ⟨?_, ?_, fun e he d hd => ?_, ?_⟩
  · refine ((perm_sortBy placedBefore _).append_right _).trans ?_
    rw [List.take_append_drop]
    exact perm_sortBy selectedBefore events
  · unfold keptOf
    rw [length_sortBy, List.length_take, length_sortBy]
  · have sorted := pairwise_sortBy selectedBefore_total selectedBefore_trans events
    rw [← List.take_append_drop 31 (sortBy selectedBefore events), List.pairwise_append] at sorted
    exact (selectedBefore_iff e d).mp (sorted.2.2 e ((mem_sortBy placedBefore _ e).mp he) d hd)
  · exact (pairwise_sortBy placedBefore_total placedBefore_trans _).imp fun {a b} h => (placedBefore_iff a b).mp h

/-! ### Duplicates (R135, step 4) -/

theorem mem_of_mem_dropDuplicates {m : Landmark} {l : List Landmark} (h : m ∈ dropDuplicates l) : m ∈ l := by
  induction l with
  | nil => cases h
  | cons a l ih =>
    unfold dropDuplicates at h
    cases hd : dropDuplicates l with
    | nil =>
      rw [hd] at h
      exact List.mem_cons.mpr (Or.inl (List.mem_singleton.mp h))
    | cons n rest =>
      rw [hd] at h ih
      dsimp only at h
      split at h
      · rcases List.mem_cons.mp h with rfl | h
        · exact List.mem_cons_self
        · exact List.mem_cons_of_mem _ (ih (List.mem_cons_of_mem _ h))
      · rcases List.mem_cons.mp h with rfl | h
        · exact List.mem_cons_self
        · exact List.mem_cons_of_mem _ (ih h)

/-- Of a list in ascending distance the entries that stay are in strictly ascending distance, and every distance of the
list is among theirs. -/
theorem dropDuplicates_spec {l : List Landmark} (h : l.Pairwise (fun a b => a.distance ≤ b.distance)) :
    (dropDuplicates l).Pairwise (fun a b => a.distance < b.distance) ∧
      ∀ m, m ∈ dropDuplicates l ↔ ∃ before after, l = before ++ m :: after ∧ ∀ d ∈ before, d.distance ≠ m.distance := by
  induction l with
  | nil =>
    refine ⟨List.Pairwise.nil, fun m => ⟨fun h => absurd h List.not_mem_nil, ?_⟩⟩
    rintro ⟨before, after, h, _⟩
    exact absurd h.symm (by simp)
  | cons a l ih =>
    obtain ⟨ha, hl⟩ := List.pairwise_cons.mp h
    obtain ⟨asc, mem⟩ := ih hl
    -- an entry after the head is kept where it is kept in the tail and does not share the head's distance
    have split (m : Landmark) : (∃ before after, a :: l = before ++ m :: after ∧ ∀ d ∈ before, d.distance ≠ m.distance) ↔
        m = a ∨ (m ∈ dropDuplicates l ∧ a.distance ≠ m.distance) := by
      rw [mem]
      constructor
      · rintro ⟨before, after, he, hd⟩
        cases before with
        | nil => exact Or.inl (List.cons.inj he).1.symm
        | cons b before =>
          obtain ⟨rfl, tail⟩ := List.cons.inj he
          exact Or.inr ⟨⟨before, after, tail, fun d h => hd d (List.mem_cons_of_mem _ h)⟩, hd _ List.mem_cons_self⟩
      · rintro (rfl | ⟨⟨before, after, he, hd⟩, hne⟩)
        · exact ⟨[], l, rfl, fun d h => by cases h⟩
        · refine ⟨a :: before, after, by rw [he]; rfl, fun d h => ?_⟩
          rcases List.mem_cons.mp h with rfl | h
          · exact hne
          · exact hd d h
    cases hd : dropDuplicates l with
    | nil =>
      have he : dropDuplicates (a :: l) = [a] := by unfold dropDuplicates; rw [hd]
      rw [he]
      refine ⟨List.pairwise_singleton _ _, fun m => ?_⟩
      rw [split, hd]
      simp
    | cons n rest =>
      rw [hd] at asc
      have hn : n ∈ l := mem_of_mem_dropDuplicates (by rw [hd]; exact List.mem_cons_self)
      have hle := ha n hn
      obtain ⟨hrest, ascrest⟩ := List.pairwise_cons.mp asc
      by_cases hc : a.distance = n.distance
      · have he : dropDuplicates (a :: l) = a :: rest := by
          unfold dropDuplicates; rw [hd]; simp only [if_pos hc]
        rw [he]
        refine ⟨List.pairwise_cons.mpr ⟨fun b hb => hc ▸ hrest b hb, ascrest⟩, fun m => ?_⟩
        rw [split, hd, List.mem_cons, List.mem_cons]
        constructor
        · rintro (rfl | hm)
          · exact Or.inl rfl
          · exact Or.inr ⟨Or.inr hm, by have := hrest m hm; omega⟩
        · rintro (rfl | ⟨rfl | hm, hne⟩)
          · exact Or.inl rfl
          · exact absurd hc hne
          · exact Or.inr hm
      · have he : dropDuplicates (a :: l) = a :: n :: rest := by
          unfold dropDuplicates; rw [hd]; simp only [if_neg hc]
        rw [he]
        refine ⟨List.pairwise_cons.mpr ⟨fun b hb => ?_, asc⟩, fun m => ?_⟩
        · rcases List.mem_cons.mp hb with rfl | hb
          · omega
          · have := hrest b hb; omega
        · rw [split, hd, List.mem_cons]
          constructor
          · rintro (rfl | hm)
            · exact Or.inl rfl
            · refine Or.inr ⟨hm, ?_⟩
              rcases List.mem_cons.mp hm with rfl | hm
              · exact hc
              · have := hrest m hm; omega
          · rintro (rfl | ⟨hm, _⟩)
            · exact Or.inl rfl
            · exact Or.inr hm

/-! ### The list (R135, R39) -/

theorem shapeLandmark_learnedLandmark (e : Event) : shapeLandmark (learnedLandmark e) = becomesLandmark e := by
  unfold learnedLandmark becomesLandmark
  by_cases h : e.reflective = true
  · simp only [if_pos h]; rfl
  · simp only [if_neg h]
    by_cases hl : 10000 ≤ e.loss
    · simp only [if_pos hl]; rfl
    · simp only [if_neg hl]; rfl

theorem distance_learnedLandmark (e : Event) : (learnedLandmark e).distance = e.distance := by
  unfold learnedLandmark
  split <;> rfl

/-- The learned list holds a FAR_END at the end distance, and for each distance short of it the first kept event there. -/
theorem mem_learnedList (x : Extraction) (m : Landmark) :
    m ∈ learnedList x ↔ m = { distance := x.endDistance, kind := .farEnd, loss := 0, height := 0 } ∨
      ∃ e, FirstAtDistance (keptOf x.events) e ∧ e.distance < x.endDistance ∧ m = becomesLandmark e := by
  have sorted : ((keptOf x.events).map learnedLandmark).Pairwise (fun a b => a.distance ≤ b.distance) := by
    rw [List.pairwise_map]
    refine (keptEvents_keptOf x.events).order.imp fun {a b} h => ?_
    rw [distance_learnedLandmark, distance_learnedLandmark]
    omega
  have first (n : Landmark) : n ∈ dropDuplicates ((keptOf x.events).map learnedLandmark) ↔
      ∃ e, FirstAtDistance (keptOf x.events) e ∧ n = learnedLandmark e := by
    rw [(dropDuplicates_spec sorted).2]
    constructor
    · rintro ⟨before, after, he, hd⟩
      obtain ⟨b, rest, hk, hb, hr⟩ := List.map_eq_append_iff.mp he
      obtain ⟨e, a, rfl, rfl, ha⟩ := List.map_eq_cons_iff.mp hr
      refine ⟨e, ⟨b, a, hk, fun d h => ?_⟩, rfl⟩
      have := hd (learnedLandmark d) (by rw [← hb]; exact List.mem_map_of_mem h)
      rwa [distance_learnedLandmark, distance_learnedLandmark] at this
    · rintro ⟨e, ⟨b, a, hk, hd⟩, rfl⟩
      refine ⟨b.map learnedLandmark, a.map learnedLandmark, by rw [hk]; simp, fun d h => ?_⟩
      obtain ⟨c, hc, rfl⟩ := List.mem_map.mp h
      rw [distance_learnedLandmark, distance_learnedLandmark]
      exact hd c hc
  have unfolded : learnedList x =
      ((dropDuplicates ((keptOf x.events).map learnedLandmark)).filter (fun m => m.distance < x.endDistance)).map
        shapeLandmark ++ [{ distance := x.endDistance, kind := .farEnd, loss := 0, height := 0 }] := rfl
  rw [unfolded, List.mem_append, List.mem_singleton, List.mem_map, or_comm]
  refine or_congr Iff.rfl ⟨?_, ?_⟩
  · rintro ⟨n, hn, rfl⟩
    obtain ⟨hn, hlt⟩ := List.mem_filter.mp hn
    obtain ⟨e, he, rfl⟩ := (first n).mp hn
    rw [distance_learnedLandmark] at hlt
    exact ⟨e, he, of_decide_eq_true hlt, shapeLandmark_learnedLandmark e⟩
  · rintro ⟨e, he, hlt, rfl⟩
    refine ⟨learnedLandmark e, List.mem_filter.mpr ⟨(first _).mpr ⟨e, he, rfl⟩, ?_⟩, shapeLandmark_learnedLandmark e⟩
    rw [distance_learnedLandmark]
    exact decide_eq_true hlt

end Sys2Proof.Machine
end

