-- ==== Sys2Proof/Laws/PerInstr.lean ====
section
/-! SUPPORT. Carriage: how a command travels. Every well-formed request has a row in the request table, a code other than
0, and a body of at most 512 bytes of the length its row gives; the other commands have no request body. -/

namespace Sys2Proof.Laws.Carriage

/-- A well-formed request is carried as a row of the request table says (R199). -/
def Statement (i : Instr) : Prop :=
  i.wellFormed = true → ∀ code body, requestBody i = some (code, body) →
    ∃ row ∈ requestRows, row.code = code ∧ code ≠ 0 ∧ body.length ≤ 512 ∧
      (row.body = .fixed body.length ∨ row.body = .counted)

/-- A request whose body has the fixed length of its row is carried as the table says. -/
theorem ofRow {i : Instr} {c n : Nat} {b : List Byte} (hb : requestBody i = some (c, b)) (hn : b.length = n)
    (hr : (⟨c, .fixed n⟩ : RequestRow) ∈ requestRows) (h0 : c ≠ 0) (h : n ≤ 512) : Statement i := by
  intro _ code body hi
  obtain ⟨rfl, rfl⟩ := Prod.mk.injEq .. ▸ Option.some.inj (hb.symm.trans hi)
  exact ⟨_, hr, rfl, h0, hn ▸ h, Or.inl (by rw [hn])⟩

/-- A command that is no request carries no request body. -/
theorem ofNone {i : Instr} (hb : requestBody i = none) : Statement i := by
  intro _ code body hi
  simp [hb] at hi

theorem spanPut (fields : SpanFields) : Statement (.spanPut fields) :=
  ofRow (n := 25) rfl rfl (by decide) (by decide) (by decide)

theorem spanGet (id : U16) : Statement (.spanGet id) :=
  ofRow (n := 2) rfl rfl (by decide) (by decide) (by decide)

theorem spanByPort (bank position : Byte) : Statement (.spanByPort bank position) :=
  ofRow (n := 2) rfl rfl (by decide) (by decide) (by decide)

theorem spanNext (id : U16) : Statement (.spanNext id) :=
  ofRow (n := 2) rfl rfl (by decide) (by decide) (by decide)

theorem spanHold (id : U16) : Statement (.spanHold id) :=
  ofRow (n := 2) rfl rfl (by decide) (by decide) (by decide)

theorem spanResume (id : U16) : Statement (.spanResume id) :=
  ofRow (n := 2) rfl rfl (by decide) (by decide) (by decide)

theorem spanRetire (id : U16) : Statement (.spanRetire id) :=
  ofRow (n := 2) rfl rfl (by decide) (by decide) (by decide)

theorem spanLearn (id : U16) : Statement (.spanLearn id) :=
  ofRow (n := 2) rfl rfl (by decide) (by decide) (by decide)

theorem marksAppend (body : List Byte) : Statement (.marksAppend body) := by
  intro hw code b hi
  obtain ⟨rfl, rfl⟩ := Prod.mk.injEq .. ▸ Option.some.inj hi
  exact ⟨⟨0x10, .counted⟩, by decide, rfl, by decide, by simpa [Instr.wellFormed] using hw, Or.inr rfl⟩

theorem marksRead (id : U16) (start : Byte) : Statement (.marksRead id start) :=
  ofRow (n := 3) rfl rfl (by decide) (by decide) (by decide)

theorem marksClear (id : U16) : Statement (.marksClear id) :=
  ofRow (n := 2) rfl rfl (by decide) (by decide) (by decide)

theorem testNow (id : U16) : Statement (.testNow id) :=
  ofRow (n := 2) rfl rfl (by decide) (by decide) (by decide)

theorem testCancel (id : U16) : Statement (.testCancel id) :=
  ofRow (n := 2) rfl rfl (by decide) (by decide) (by decide)

theorem condGet (tag : U16) : Statement (.condGet tag) :=
  ofRow (n := 2) rfl rfl (by decide) (by decide) (by decide)

theorem condNext (id tag : U16) : Statement (.condNext id tag) :=
  ofRow (n := 4) rfl rfl (by decide) (by decide) (by decide)

theorem condAck (tag : U16) : Statement (.condAck tag) :=
  ofRow (n := 2) rfl rfl (by decide) (by decide) (by decide)

theorem condRetire (tag : U16) : Statement (.condRetire tag) :=
  ofRow (n := 2) rfl rfl (by decide) (by decide) (by decide)

theorem severitySet (fields : SeverityFields) : Statement (.severitySet fields) :=
  ofRow (n := 5) rfl rfl (by decide) (by decide) (by decide)

theorem profileSet (fields : ProfileFields) : Statement (.profileSet fields) :=
  ofRow (n := 11) rfl rfl (by decide) (by decide) (by decide)

theorem profileGet (number : Byte) : Statement (.profileGet number) :=
  ofRow (n := 1) rfl rfl (by decide) (by decide) (by decide)

theorem clockSet (timeOfDay : U32) : Statement (.clockSet timeOfDay) :=
  ofRow (n := 4) rfl rfl (by decide) (by decide) (by decide)

theorem windowSet (openTime closeTime : U32) : Statement (.windowSet openTime closeTime) :=
  ofRow (n := 8) rfl rfl (by decide) (by decide) (by decide)

theorem classSet (cls weight preemptible : Byte) : Statement (.classSet cls weight preemptible) :=
  ofRow (n := 3) rfl rfl (by decide) (by decide) (by decide)

theorem guardSet (overload live : U16) : Statement (.guardSet overload live) :=
  ofRow (n := 4) rfl rfl (by decide) (by decide) (by decide)

theorem coilSet (bank : Byte) (length : U32) (groupIndex : U16) : Statement (.coilSet bank length groupIndex) :=
  ofRow (n := 7) rfl rfl (by decide) (by decide) (by decide)

theorem bankRestore (bank : Byte) (sense : Sense) : Statement (.bankRestore bank sense) :=
  ofRow (n := 1) rfl rfl (by decide) (by decide) (by decide)

theorem statusGet : Statement .statusGet :=
  ofRow (n := 0) rfl rfl (by decide) (by decide) (by decide)

theorem changesRead : Statement .changesRead :=
  ofRow (n := 0) rfl rfl (by decide) (by decide) (by decide)

theorem attentionSet (span condition unit : Byte) : Statement (.attentionSet span condition unit) :=
  ofRow (n := 3) rfl rfl (by decide) (by decide) (by decide)

theorem restart : Statement .restart :=
  ofRow (n := 0) rfl rfl (by decide) (by decide) (by decide)

theorem frameRefused (frame : List Byte) : Statement (.frameRefused frame) := ofNone rfl

theorem readPeriod (clocked : Nat) : Statement (.readPeriod clocked) := ofNone rfl

theorem ignoredPeriod (clocked : Nat) : Statement (.ignoredPeriod clocked) := ofNone rfl

theorem powerOn (straps : Straps) (inhibit : Bool) : Statement (.powerOn straps inhibit) := ofNone rfl

theorem resetPin (straps : Straps) (inhibit : Bool) : Statement (.resetPin straps inhibit) := ofNone rfl

theorem inhibitAsserted : Statement .inhibitAsserted := ofNone rfl

theorem inhibitReleased : Statement .inhibitReleased := ofNone rfl

theorem timeAdvance : Statement .timeAdvance := ofNone rfl

theorem settleCompletion (bank : Letter) (sense : Sense) : Statement (.settleCompletion bank sense) := ofNone rfl

theorem guardCompletion (channel : Letter) (sum : Nat) : Statement (.guardCompletion channel sum) := ofNone rfl

theorem shotAccumulated (channel : Letter) (samples : List U16) : Statement (.shotAccumulated channel samples) := ofNone rfl

theorem acquisitionCompletion (channel : Letter) : Statement (.acquisitionCompletion channel) := ofNone rfl

theorem dispatchPass (senseA senseB : Sense) : Statement (.dispatchPass senseA senseB) := ofNone rfl

theorem analysisTake : Statement .analysisTake := ofNone rfl

theorem analysisCompletion : Statement .analysisCompletion := ofNone rfl

end Sys2Proof.Laws.Carriage
end

