-- ==== Sys2Proof/Tests/Slice0.lean ====
section
/-! SUPPORT. Tests: ill-formed commands, the worked figures and sequences of the spec on small states, and for every
statement with hypotheses a state and operands that meet them. -/

namespace Sys2Proof.Tests

set_option Elab.async false

open Sys2Proof Sys2Proof.Machine

/-! ### Ill-formed commands -/

theorem test_wellFormed_marksAppend_too_long : (Instr.marksAppend (List.replicate 513 0)).wellFormed = false := by
  decide +kernel

theorem test_wellFormed_frame_passes : (Instr.frameRefused [0x40, 0, 0]).wellFormed = false := by decide

theorem test_wellFormed_frame_of_read : (Instr.frameRefused [0, 0, 0]).wellFormed = false := by decide

theorem test_wellFormed_read_of_nothing : (Instr.readPeriod 0).wellFormed = false := by decide

theorem test_wellFormed_guard_sum : (Instr.guardCompletion .A 52428000001).wellFormed = false := by decide

theorem test_wellFormed_shot_length : (Instr.shotAccumulated .A (List.replicate 257 0)).wellFormed = false := by
  decide +kernel

theorem test_wellFormed_taken : (Instr.frameRefused [0x40, 0, 1, 0]).wellFormed = true ∧
    (Instr.readPeriod 1).wellFormed = true ∧ (Instr.guardCompletion .A 52428000000).wellFormed = true ∧
    (Instr.shotAccumulated .A (List.replicate 512 0)).wellFormed = true := by decide +kernel

/-! ### Small states -/

/-- The clamped fields of the worked example of section 11.6. -/
def fields : ClampedFields := ⟨14680, 96, 350, 150, 250, 300, 500, 2, 3⟩

/-- A span of profile 2, class 1, interval 1, at a port, with an empty list and revision 4. -/
def aSpan (id : Nat) (state : SpanState) (bank : Letter) (position : Nat) : SpanRecord :=
  { id := id, state := state, resume := .active, bank := bank, position := position, profile := 2, cls := 1
    interval := 1, phase := 0, clamped := fields, revision := 4, landmarks := [], lastOutcome := .none_
    lastWindow := 0, lastEnd := none, missed := false, live := false, overflow := false, dropped := 0, mark := false }

/-- A list of two landmarks that ends in a FAR_END. -/
def shortList : List Landmark := [⟨1520, .connector, 450, 3800⟩, ⟨1412640, .farEnd, 0, 0⟩]

/-- A condition of a span. -/
def aCondition (tag span : Nat) (kind : FaultKind) (state : CondState) : Condition :=
  { tag := tag, span := span, kind := kind, state := state, distance := 500000, magnitude := 300, hits := 1, misses := 0
    firstSeen := 1, lastSeen := 1, single := false, degraded := false, acknowledged := false, mark := true }

/-- A part with a span in every state, a vacated report, and three conditions. -/
def shelf : State :=
  { State.reset with
    directory :=
      [.span (aSpan 1 .active .A 1), .span (aSpan 2 .draft .A 2),
       .span { aSpan 3 .held .B 3 with landmarks := shortList }, .span (aSpan 4 .learning .A 4),
       .span (aSpan 5 .retiring .A 5), .vacated 6, .span { aSpan 7 .draft .B 7 with landmarks := shortList, mark := true },
       .span (aSpan 65535 .active .B 60)]
    table := { conditions := [aCondition 7 1 .loss .confirmed, aCondition 1 1 .drift .suspect,
                              aCondition 65535 3 .bend .retired]
               tagCounter := 8, severity := defaultSeverity } }

theorem fields_inRange : fields.InRange :=
  ⟨by decide, by decide, by decide, by decide, by decide, by decide, by decide, by decide, by decide⟩

theorem aSpan_inRange {id position : Nat} {state : SpanState} {bank : Letter} (list : List Landmark)
    (hi : 1 ≤ id ∧ id ≤ 65535) (hp : 1 ≤ position ∧ position ≤ 60) :
    ({ aSpan id state bank position with landmarks := list } : SpanRecord).InRange :=
  ⟨hi, hp, (by decide : 1 ≤ 1 ∧ 1 ≤ 7), (by decide : 0 < 1), fields_inRange⟩

theorem shelf_directory : DirectoryLaw shelf := by
  refine ⟨by decide, by decide, fun r hr => ?_⟩
  have hf : r.clamped = fields := (by decide : ∀ r ∈ shelf.spans, r.clamped = fields) r hr
  have h : 1 ≤ r.id ∧ r.id ≤ 65535 ∧ 1 ≤ r.position ∧ r.position ≤ 60 ∧ 1 ≤ r.interval ∧ r.interval ≤ 7 ∧
      r.phase < r.interval :=
    (by decide : ∀ r ∈ shelf.spans, 1 ≤ r.id ∧ r.id ≤ 65535 ∧ 1 ≤ r.position ∧ r.position ≤ 60 ∧ 1 ≤ r.interval ∧
      r.interval ≤ 7 ∧ r.phase < r.interval) r hr
  exact ⟨⟨h.1, h.2.1⟩, ⟨h.2.2.1, h.2.2.2.1⟩, ⟨h.2.2.2.2.1, h.2.2.2.2.2.1⟩, h.2.2.2.2.2.2, hf ▸ fields_inRange⟩

/-- A state with the shelf's directory obeys the law of the directory. -/
theorem directory_of {s : State} (h : s.directory = shelf.directory) : DirectoryLaw s := by
  have hs : s.spans = shelf.spans := congrArg (List.filterMap Entry.span?) h
  exact ⟨h ▸ shelf_directory.order, h ▸ shelf_directory.room, fun r hr => shelf_directory.fields r (hs ▸ hr)⟩

theorem shelf_ports : PortLaw shelf := ⟨by decide, by decide⟩

theorem shelf_table : TableLaw shelf := ⟨by decide, by decide, by decide, by decide, by decide⟩

theorem shelf_pool : PoolLaw shelf := by
  refine ⟨fun r hr => ?_, by decide⟩
  have h : ∀ r ∈ shelf.spans, r.landmarks = [] ∨ r.landmarks = shortList := by decide
  rcases h r hr with h | h <;> rw [h] <;> exact ⟨by decide, by decide⟩

theorem shelf_banks : BankLaw shelf := ⟨by decide, fun l ch h => by cases l <;> simp [shelf, State.reset, State.afterReset,
  Config.resetStraps, presentBankAtReset, Pair.get] at h, fun l h => by cases l <;> rfl⟩

/-- A snapshot of profile 2 as after reset. -/
def snapshot : Snapshot := snapshotOf 2 defaultProfiles.x2

/-- A job in flight, for channel A. -/
def aFlight (work : Work) (plan : Plan) : Flight :=
  { work := work, dispatchTime := 0, channel := .A, snapshot := snapshot, plan := plan, shotsDone := 0, short := false
    single := false, live := false, recorded := none, cancelled := false }

/-- A SCHEDULED test of span 1 of class 1. -/
def scheduled1 : Flight := aFlight (.test (.scheduled 1) 1 4) .dual

/-- A DEMAND test of span 1. -/
def demand1 : Flight := aFlight (.test .demand 1 4) .dual

/-- The input copy of a test of span 1, with this list. -/
def input (levels : List Nat) (list : List Landmark) : InputCopy :=
  { primary := levels, secondary := none, snapshot := snapshot, trim := 0
    subject := .span { fields := fields, rangeDistance := 1672956, landmarks := list } }

/-- The job in ANALYSING, with this list copy. -/
def analysisOf (f : Flight) (list : List Landmark) : Analysis := { flight := f, input := input [] list, due := 5 }

/-- The shelf with an open window. -/
def night : State := { shelf with timeBase := ⟨4000, 3600, 18000, true, 12, 1000000000⟩ }

/-- Channel A runs a job at a stage and holds bank A; the job holds buffer 0 and, for a DUAL plan, buffer 1. -/
def running (s : State) (stage : Stage) (f : Flight) : State :=
  { s with
    channels := s.channels.set .A { s.channels.a with
      activity := .busy stage f, accumulator := List.replicate f.snapshot.profile.pointCount 0 }
    banks := s.banks.set .A { s.banks.a with holder := some .A, motion := .still, sensed := some 0 }
    buffers := ⟨some ⟨f.work.id, .nm1625, none⟩, if f.plan = .dual then some ⟨f.work.id, .nm1310, none⟩ else none, none,
      none⟩ }

/-- The shelf with the engine at work on one job and another waiting. -/
def engineOf (current : Option Analysis) (queue : List Flight) : State :=
  { shelf with engine := { queue := queue, current := current } }

/-- The shelf with these jobs in the demand queue. -/
def demandOf (jobs : List DemandJob) : State := { shelf with sched := { shelf.sched with demandQueue := jobs } }

/-- The night with span 1's SCHEDULED job queued. -/
def queued : State := { night with sched := { night.sched with classQueues := ⟨[], [1], [], []⟩ } }

/-- The shelf with bank B absent. -/
def noBankB : State := { shelf with inputs := { shelf.inputs with straps := ⟨false, true, true⟩ } }

/-- The state that an outcome leads to; the shelf's reset where there is none. -/
def after (o : Host.Outcome State Fault Refusal) : State :=
  match o with
  | .next t => t
  | .fault _ => State.reset
  | .refused _ => State.reset

/-- The status of the pending response. -/
def statusAfter (i : Instr) (s : State) : Option Status := (after (exec i s)).link.response.map Response.status

/-- The body of the pending response. -/
def bodyAfter (i : Instr) (s : State) : Option (List Byte) := (after (exec i s)).link.response.map Response.body

/-! ### Worked figures and sequences of the spec -/

/-- The request of sections 1.10 and 11.6. -/
def put300 : SpanFields :=
  { identifier := 300, bank := 1, position := 12, profile := 2, cls := 1, interval := 2, phase := 1, groupIndex := 14680
    launchOffset := 96, attenuation := 350, lossThreshold := 20, driftThreshold := 250, bendMargin := 300
    matchTolerance := 500, confirmCount := 2, clearCount := 3, clearFlags := 0 }

theorem test_put300_frame : encodeFrame (.spanPut put300) =
    some [0x01, 0, 25, 1, 44, 1, 12, 2, 1, 2, 1, 0x39, 0x58, 0, 96, 1, 94, 0, 20, 0, 250, 1, 44, 1, 244, 2, 3, 0] := by
  decide +kernel

theorem test_put300_response : statusAfter (.spanPut put300) shelf = some .clamped ∧
    bodyAfter (.spanPut put300) shelf =
      some [1, 44, 1, 1, 1, 12, 2, 1, 2, 1, 0x39, 0x58, 0, 96, 1, 94, 0, 50, 0, 250, 1, 44, 1, 244, 2, 3, 0, 0, 0, 0, 0, 0,
        0xFF, 0xFF, 0xFF, 0xFF, 8, 0] := by
  decide +kernel

theorem test_put300_wrong_lengths :
    checkFrame ([0x01, 0, 24] ++ List.replicate 24 0) = .refused .badField ∧
    checkFrame ([0x01, 0, 25] ++ List.replicate 20 0) = .refused .frameShort := by decide +kernel

theorem test_put_port_taken : statusAfter (.spanPut { put300 with bank := 0, position := 4 }) shelf = some .exists_ := by
  decide +kernel

theorem test_next_passes_vacated_report :
    bodyAfter (.spanNext 5) shelf = some (spanRecordBytes { aSpan 7 .draft .B 7 with landmarks := shortList, mark := true }) := by
  decide +kernel

theorem test_profile_figures : snapshot.guard = 17 ∧ snapshot.shotPeriod = 165840 ∧ snapshot.shots = 16384 ∧
    scheduled1.acquisitionEnd 0 = 2717122560 ∧ rangeDistance 14680 snapshot.rangeBins = 1672956 ∧ binsToCm 14680 96 = 2451 := by
  decide +kernel

theorem test_profile_settled : (defaultProfiles.x3).pointCount = 8192 ∧
    ({ defaultProfiles.x3 with pointCount := 5000 } : Profile).settled.pointCount = 4864 ∧
    ({ defaultProfiles.x3 with pointCount := 300 } : Profile).settled.pointCount = 512 ∧
    ({ defaultProfiles.x3 with pointCount := 20000 } : Profile).settled.pointCount = 16384 := by decide +kernel

theorem test_levels : levelOf 142 = 10761 ∧ levelOf 3000 = 17386 ∧ levelOf 65535 = 24082 ∧ levelOf 1 = 0 := by
  decide +kernel

/-- The spike of section 6.7 on a trace of 512 points. -/
def spike : List Nat :=
  List.replicate 190 19000 ++ [21600, 20200] ++ List.replicate 64 18420 ++ List.replicate 256 9200

theorem test_spike : (extract
      { input spike [] with snapshot := snapshotOf 2 { defaultProfiles.x2 with pointCount := 512 }, trim := 2 }
      { fields := fields, rangeDistance := 1672956, landmarks := [] }).events.head? =
    some ⟨190, true, 793, 2600, 556, none, 36504⟩ := by decide +kernel

/-- The result of section 6.7. -/
def result67 : Extraction :=
  { events := [⟨190, true, 793, 2600, 556, some 526, 36504⟩, ⟨3000, false, 376, 0, 376, some 62, 610357⟩,
               ⟨6983, false, 8796, 0, 8796, some 8590, 1423759⟩]
    endPoint := 6999, endBeyondRange := false, truncated := false, endDistance := 1427026, pointDistance := 204
    hasSecondary := true }

/-- The list of section 7.6. -/
def list76 : List Landmark :=
  [⟨36800, .connector, 500, 2700⟩, ⟨610900, .splice, 180, 0⟩, ⟨1423600, .splice, 8700, 0⟩, ⟨1427300, .farEnd, 0, 0⟩]

/-- The values copied in section 7.6. -/
def copy76 : SpanCopy := { fields := fields, rangeDistance := 1672956, landmarks := list76 }

theorem test_comparison : findingList 17 copy76 result67 false = [⟨.drift, 36800, 293, false, false⟩] ∧
    findingList 17 { copy76 with landmarks := list76.eraseIdx 1 } result67 false =
      [⟨.drift, 36800, 293, false, false⟩, ⟨.bend, 610357, 376, false, false⟩] := by decide +kernel

theorem test_break : findingList 17 copy76
      { result67 with
        events := (result67.events.take 2) ++ [⟨3040, true, 900, 4120, 0, some 0, 618526⟩]
        endPoint := 3050, endDistance := 620568 } false =
    [⟨.drift, 36800, 293, false, false⟩, ⟨.reflection, 618526, 4120, false, false⟩, ⟨.break_, 620568, 4120, false, false⟩] := by
  decide +kernel

theorem test_learn : learnedList result67 =
    [⟨36504, .connector, 793, 2600⟩, ⟨610357, .splice, 376, 0⟩, ⟨1423759, .splice, 8796, 0⟩, ⟨1427026, .farEnd, 0, 0⟩] := by
  decide +kernel

theorem test_verify_nights : verifyResult ⟨50000, 14680⟩ 2 (some 978) 0 = (2, false) ∧
    verifyResult ⟨50000, 14680⟩ 2 none 2 = (2, true) ∧ verifyResult ⟨50000, 14680⟩ 2 (some 1140) 2 = (2, true) ∧
    verifyResult ⟨50000, 14680⟩ 2 (some 1060) 2 = (-64, false) := by decide +kernel

/-- The two close faults of section 8.12. -/
def table812 : CondTable :=
  { conditions := [{ aCondition 60 4117 .loss .confirmed with distance := 500000, mark := false },
                   { aCondition 61 4117 .loss .confirmed with distance := 500600, mark := false }]
    tagCounter := 3000, severity := defaultSeverity }

theorem test_close_faults :
    let k := table812.apply
      { span := 4117, findings := [⟨.loss, 500500, 300, false, false⟩, ⟨.loss, 501100, 300, false, false⟩], tolerance := 704
        confirmCount := 2, clearCount := 3, window := 20 }
    k.dropped = 0 ∧ k.table.tagCounter = 3001 ∧
      k.table.conditions.map (fun c => (c.tag, c.state, c.distance, c.misses)) =
        [(60, .clearing, 500000, 1), (61, .confirmed, 500500, 0), (3000, .suspect, 501100, 0)] := by decide +kernel

/-- A window open and its dispatch pass are one act: of the two spans due, each channel has one. -/
theorem test_window_opens :
    (let s : State := { shelf with timeBase := ⟨3599, 3600, 18000, false, 411, 7⟩ }
     let t := after (exec .timeAdvance s)
     s.raiseWindow.sched.classQueues = ⟨[], [1, 65535], [], []⟩ ∧
     t.timeBase = ⟨3600, 3600, 18000, true, 412, 1000000007⟩ ∧ t.now = 8 ∧ t.sched.dispatchCalled = false ∧
     t.sched.classQueues = ⟨[], [], [], []⟩ ∧
     (t.channels.a.activity.flight?.map (fun f => f.work.id), t.channels.b.activity.flight?.map (fun f => f.work.id)) =
       (some (.span 1), some (.span 65535))) ∧
    (let t := after (exec (.clockSet 3600) { shelf with timeBase := ⟨0, 3600, 18000, false, 411, 7⟩ })
     t.channels.a.activity.flight?.map Flight.plan = some .dual ∧ t.link.response.map Response.status = some .ok) := by
  decide +kernel

/-- A SPAN_HOLD of span 1 directly behind the advance that opens the window: the pass gives channel A the other job and
leaves span 1's QUEUED, and the hold removes it. Behind a CLOCK_SET that opens the window, the hold finds the job
dispatched, where it continues. -/
theorem test_hold_together_with_the_open :
    (let s (l : List Instr) : State := { shelf with timeBase := ⟨3599, 3600, 18000, false, 411, 7⟩, pending := l }
     let t := after (step (s [.timeAdvance, .spanHold 1]))
     let u := after (step t)
     let v := after (step (s [.clockSet 3600, .spanHold 1]))
     t.channels.a.activity.flight?.map (fun f => f.work.id) = some (.span 65535) ∧ t.channels.b.activity = .idle ∧
     t.jobPlace 1 = some (.classQueue 1) ∧ u.jobPlace 1 = none ∧
     (u.findSpan 1).map (fun r => (r.state, r.missed)) = some (.held, false) ∧ u.channels = t.channels ∧
     v.channels.a.activity.flight?.map (fun f => f.work.id) = some (.span 1) ∧ (after (step v)).channels = v.channels) := by
  decide +kernel

theorem test_weighted_reload : ({ queued with sched := { queued.sched with classes :=
      ⟨⟨0, false, 0⟩, ⟨2, true, 0⟩, ⟨1, true, 0⟩, ⟨1, true, 0⟩⟩ } } : State).choose .A =
    { sched := { queued.sched with classes := ⟨⟨0, false, 0⟩, ⟨2, true, 1⟩, ⟨1, true, 1⟩, ⟨1, true, 1⟩⟩ }
      job := some (.test (.scheduled 1) 1) } := by decide +kernel

theorem test_dispatch_moves_the_switch : (after (exec (.dispatchPass none none) { queued with now := 100 })).banks.a =
    { presentBankAtReset with holder := some .A, commanded := 1, motion := .moving 30000100 } := by decide +kernel

theorem test_live_light : let t := after (exec (.guardCompletion .A (142 * 800000)) (running night (.guard 5) scheduled1))
    (t.spans.head?.map SpanRecord.live, t.buffers.x1, t.channels.a.activity.flight?.map Flight.plan) =
      (some true, none, some .single) := by decide +kernel

/-- Bank A, held by channel A, on its way to position 20. -/
def moving20 : Bank := { presentBankAtReset with holder := some .A, commanded := 20 }

/-- A test of span 1 in SWITCHING while bank A moves to position 20. -/
def switching : State :=
  { running night .switching scheduled1 with banks := night.banks.set .A moving20 }

theorem test_position_fault : let t := after (exec (.settleCompletion .A (some 21)) switching)
    (t.banks.a.service, t.banks.a.sensed, t.banks.a.holder, t.banks.a.mark) = (.outOfService, some 21, none, true) ∧
      t.channels.a.activity = .idle ∧ t.spans.head?.map SpanRecord.lastOutcome = some .bankFault := by decide +kernel

/-- The shelf after all three categories are enabled. -/
def attentive : State := after (exec (.attentionSet 1 1 1) shelf)

theorem test_changes_drain : (bodyAfter .changesRead attentive).map (fun b => (b.length, b.take 3)) =
      some (3 + 16 + 16 + 3 * 20, [5, 0, 0]) ∧
    (after (exec .changesRead attentive)).attn = false ∧
    (after (exec .changesRead attentive)).table.conditions.map Condition.tag = [7, 1] := by decide +kernel

theorem test_response_lost : let t := after (exec (.spanGet 1) attentive)
    (t.link.response.map Response.flags, (after (exec (.readPeriod 43) t)).link.state) = (some 3, .readyIdle) := by
  decide +kernel

/-! ### Witnesses: for each statement with hypotheses, a state and operands that meet them, clause by clause -/

theorem test_witness_StatusGetAnswersTheSummary : shelf.ready = true ∧ shelf.channels.a.activity = .idle ∧
    (running night .switching scheduled1).channels.a.activity = .busy .switching scheduled1 ∧
    (running night (.guard 5) demand1).channels.a.activity = .busy (.guard 5) demand1 ∧
    (running night (.firing1625 9) (aFlight (.test .learn 4 4) .single)).channels.a.activity =
      .busy (.firing1625 9) (aFlight (.test .learn 4 4) .single) ∧
    (running night (.firing1310 9) (aFlight (.verify .A ⟨5, 14680⟩) .dual)).channels.a.activity =
      .busy (.firing1310 9) (aFlight (.verify .A ⟨5, 14680⟩) .dual) ∧
    (after (exec .inhibitAsserted shelf)).channels.a.activity = .inhibited :=
  ⟨by decide, rfl, rfl, rfl, rfl, rfl, by decide +kernel⟩

theorem test_summary_inputs : ((bodyAfter .statusGet shelf).map (fun b => (b.drop 80).take 1)) = some [0x0E] := by
  decide +kernel

theorem test_witness_FrameChecksGoInOrder : shelf.ready = true ∧
    ([0x02, 0] : List Byte).length < 3 ∧ (∀ row ∈ requestRows, row.code ≠ (0x09 : Byte).toNat) ∧
    (⟨0x02, .fixed 2⟩ : RequestRow) ∈ requestRows ∧ 512 < 256 * (2 : Byte).toNat + (1 : Byte).toNat ∧
    ([5] : List Byte).length < 256 * (0 : Byte).toNat + (2 : Byte).toNat ∧
    ([5, 6, 7] : List Byte).length = 256 * (0 : Byte).toNat + (3 : Byte).toNat ∧ 2 ≠ 256 * (0 : Byte).toNat + (3 : Byte).toNat := by
  decide

theorem test_witness_RequestFramesRoundTrip : (Instr.bankRestore 1 (some 60)).wellFormed = true ∧
    encodeFrame (.bankRestore 1 (some 60)) = some [0x3A, 0, 1, 1] := by decide

theorem test_witness_RefusedRequestsChangeNoRecord : shelf.ready = true ∧ (requestBody (.spanGet 6)).isSome = true ∧
    (statusAfter (.spanGet 6) shelf).map Status.taken = some false := by decide

/-- The shelf with READY low. -/
def working : State := { shelf with link := { shelf.link with state := .working } }

theorem test_witness_NothingPassesWhileReadyIsLow : working.ready = false ∧ (requestBody .statusGet).isSome = true := by
  decide

theorem test_witness_ReadPeriodsClockOutTheResponse : shelf.ready = true ∧ shelf.link.response = none ∧
    attentive.ready = true ∧ attentive.link.response.map (fun r => r.frame.length) = some 7 := by decide +kernel

theorem test_witness_AttentionSetReplacesTheEnables : shelf.ready = true ∧ (1 : Byte).toNat ≤ 1 ∧ 1 < (2 : Byte).toNat := by
  decide

theorem test_witness_ChangesReadReturnsTheFirstSixteen : attentive.ready = true ∧ DirectoryLaw attentive ∧
    TableLaw attentive ∧ attentive.enabledItems.length = 5 := by
  have h : attentive.directory = shelf.directory ∧ attentive.table = shelf.table := by decide +kernel
  exact ⟨by decide +kernel, directory_of h.1,
    ⟨h.2 ▸ shelf_table.room, h.2 ▸ shelf_table.hits, h.2 ▸ shelf_table.unique, h.2 ▸ shelf_table.range,
      h.2 ▸ shelf_table.counter⟩, by decide +kernel⟩

theorem test_witness_ready_commands : shelf.ready = true ∧ night.ready = true ∧ noBankB.ready = true := by decide

theorem shelf_conditions : ConditionLaw shelf := ⟨by decide, by decide, by decide, by decide⟩

theorem jobLaw_of {s : State} (once : s.jobIds.Nodup)
    (named : (s.jobIds.all fun j => match j with
      | .span id => s.spans.any (fun r => r.id == id)
      | .verify _ => true) = true)
    (held : ∀ i : Fin 4, ∀ h ∈ s.buffers.get i, ∃ f ∈ s.flights, f.work.id = h.holder)
    (roles : ∀ i k : Fin 4, ∀ h ∈ s.buffers.get i, ∀ g ∈ s.buffers.get k, h.holder = g.holder → h.role = g.role → i = k) :
    JobLaw s := by
  refine ⟨once, fun id hi => ?_, fun i h hh => held i h hh, fun i k h g hh hg => roles i k h hh g hg⟩
  obtain ⟨r, hr, he⟩ := List.any_eq_true.mp (List.all_eq_true.mp named _ hi)
  exact ⟨r, hr, eq_of_beq he⟩

/-- For the laws that every step keeps: a state that obeys them all takes a step. -/
theorem test_witness_EveryStepKeepsTheLaws : LinkLaw shelf ∧ SettingsLaw shelf ∧ InhibitLaw shelf ∧ QueueLaw shelf ∧
    DirectoryLaw shelf ∧ PortLaw shelf ∧ TableLaw shelf ∧ ConditionLaw shelf ∧ InputLaw shelf ∧ PoolLaw shelf ∧
    BankLaw shelf ∧ JobLaw shelf ∧ ∃ t, step shelf = .next t := by
  refine ⟨⟨by decide, by decide, by decide⟩, ⟨fun n => ?_, by decide, fun k => by cases k <;> decide, by decide, ?_,
    fun l => by cases l <;> exact ⟨by decide, by decide, by decide⟩⟩,
    fun ch => by cases ch <;> rfl, fun _ c => ?_, shelf_directory, shelf_ports, shelf_table, shelf_conditions,
    fun a c h => absurd h (by simp [shelf, State.reset, State.afterReset]), shelf_pool, shelf_banks,
    jobLaw_of (by decide) (by decide) (by decide) (by decide), _, rfl⟩
  · fin_cases n <;> exact ⟨by decide, by decide, by decide, by decide, by decide, by decide, by decide⟩
  · intro c
    fin_cases c <;> exact ⟨by decide, by decide⟩
  · fin_cases c <;> rfl

/-- A job at a channel with two buffers, one queued, one in the engine, and the input copy of the latter. -/
theorem test_witness_EveryStepKeepsTheLaws_busy :
    JobLaw { running night .switching scheduled1 with
      sched := { night.sched with demandQueue := [⟨4, true⟩], verifyPlaces := ⟨false, true⟩ }
      engine := { queue := [], current := some (analysisOf (aFlight (.test .demand 2 4) .single) list76) } } ∧
    InputLaw (engineOf (some (analysisOf demand1 list76)) []) ∧
    ConditionLaw (engineOf (some (analysisOf demand1 list76)) []) := by
  refine ⟨jobLaw_of (by decide +kernel) (by decide +kernel) (by decide +kernel) (by decide +kernel), fun a c ha hc => ?_,
    ⟨shelf_conditions.misses, shelf_conditions.clearing, shelf_conditions.suspect, shelf_conditions.named⟩⟩
  cases ha
  cases hc
  exact fields_inRange

theorem test_witness_SpanReadsAnswerTheRecord : shelf.ready = true ∧ DirectoryLaw shelf ∧ PortLaw shelf ∧
    (0 : U16).toNat = 0 ∧ (∀ r ∈ shelf.spans, r.id ≠ (6 : U16).toNat) ∧ (∃ r ∈ shelf.spans, r.id = (65535 : U16).toNat) ∧
    1 < (2 : Byte).toNat ∧ 60 < (61 : Byte).toNat ∧ bankOfByte 1 = some .B ∧ noBankB.present .B = false ∧
    shelf.present .B = true ∧ (∀ r ∈ shelf.spans, ¬(r.bank = .B ∧ r.position = (1 : Byte).toNat)) ∧
    (∃ r ∈ shelf.spans, r.bank = .B ∧ r.position = (60 : Byte).toNat) ∧
    (∀ r ∈ shelf.spans, r.id ≤ (65535 : U16).toNat) ∧
    (∃ r ∈ shelf.spans, (7 : U16).toNat < r.id ∧ ∀ q ∈ shelf.spans, (7 : U16).toNat < q.id → r.id ≤ q.id) :=
  ⟨by decide, shelf_directory, shelf_ports, by decide⟩

theorem test_witness_SpanReads_without_bank_B : noBankB.ready = true ∧ DirectoryLaw noBankB ∧ PortLaw noBankB :=
  ⟨by decide, directory_of rfl, ⟨shelf_ports.distinct, shelf_ports.nonzero⟩⟩

/-- A SPAN_PUT with every checked field at the bound of its range. -/
def putAt (id : U16) (bank position : Byte) : SpanFields :=
  { put300 with identifier := id, bank := bank, position := position, profile := 7, cls := 3, interval := 7, phase := 6 }

theorem putAt_inRange {id : U16} {bank position : Byte} (hb : bank.toNat ≤ 1) (h1 : 1 ≤ position.toNat)
    (h60 : position.toNat ≤ 60) : CheckedInRange (putAt id bank position) :=
  ⟨hb, ⟨h1, h60⟩, (by decide : (7 : Byte).toNat ≤ 7), (by decide : (3 : Byte).toNat ≤ 3),
    (by decide : 1 ≤ (7 : Byte).toNat ∧ (7 : Byte).toNat ≤ 7), (by decide : (6 : Byte).toNat < (7 : Byte).toNat)⟩

theorem test_witness_SpanPutCreatesADraftSpan : shelf.ready = true ∧ (putAt 65534 1 59).identifier.toNat ≠ 0 ∧
    CheckedInRange (putAt 65534 1 59) ∧ bankOfByte (putAt 65534 1 59).bank = some .B ∧
    (∀ r ∈ shelf.spans, r.id ≠ (putAt 65534 1 59).identifier.toNat) ∧ shelf.spans.length < 120 ∧
    shelf.present .B = true ∧ (∀ r ∈ shelf.spans, ¬(r.bank = .B ∧ r.position = (putAt 65534 1 59).position.toNat)) ∧
    shelf.directory.length < 120 :=
  ⟨by decide, by decide, putAt_inRange (by decide) (by decide) (by decide), by decide⟩

theorem test_witness_SpanPutEditsTheSpan : shelf.ready = true ∧ DirectoryLaw shelf ∧ aSpan 1 .active .A 1 ∈ shelf.spans ∧
    CheckedInRange (putAt 1 0 1) ∧ CheckedInRange (putAt 1 1 59) ∧ bankOfByte 0 = some .A ∧ bankOfByte 1 = some .B ∧
    queued.ready = true ∧ DirectoryLaw queued ∧ queued.jobQueued 1 = true ∧ queued.jobPastQueued 1 = false ∧
    queued.present .B = true ∧ (∀ q ∈ queued.spans, ¬(q.bank = .B ∧ q.position = (59 : Byte).toNat)) :=
  ⟨by decide, shelf_directory, by decide, putAt_inRange (by decide) (by decide) (by decide),
    putAt_inRange (by decide) (by decide) (by decide), by decide, by decide, by decide, directory_of rfl, by decide⟩

/-- A directory of 120 spans. -/
def full : State :=
  { shelf with directory := (List.range 120).map (fun i =>
      Entry.span (aSpan (i + 1) .draft (if i < 60 then .A else .B) (i % 60 + 1))) }

theorem full_directory : DirectoryLaw full := by
  refine ⟨by decide +kernel, by decide +kernel, fun r hr => ?_⟩
  have hs : full.spans = (List.range 120).map (fun i => aSpan (i + 1) .draft (if i < 60 then .A else .B) (i % 60 + 1)) := by
    decide +kernel
  rw [hs, List.mem_map] at hr
  obtain ⟨i, hi, rfl⟩ := hr
  have : i < 120 := List.mem_range.mp hi
  exact aSpan_inRange [] (by omega) (by omega)

/-- A directory of 119 spans and the vacated report of identifier 41. -/
def fullOfReports : State :=
  { full with directory := full.directory.map (Entry.vacate 41) }

theorem fullOfReports_directory : DirectoryLaw fullOfReports := by
  refine ⟨by decide +kernel, by decide +kernel, fun r hr => full_directory.fields r ?_⟩
  obtain ⟨e, he, hs⟩ := List.mem_filterMap.mp hr
  obtain ⟨q, hq, rfl⟩ := List.mem_map.mp he
  refine List.mem_filterMap.mpr ⟨q, hq, ?_⟩
  cases q with
  | vacated i => exact absurd hs (by simp [Entry.vacate, Entry.span?])
  | span q => by_cases h : q.id = 41 <;> simp_all [Entry.vacate, Entry.span?]

theorem test_witness_SpanPutCreates_past_reports :
    (∀ r ∈ shelf.spans, r.id ≠ (putAt 6 1 59).identifier.toNat) ∧ DirectoryLaw shelf ∧
    Entry.vacated (putAt 6 1 59).identifier.toNat ∈ shelf.directory ∧
    fullOfReports.ready = true ∧ DirectoryLaw fullOfReports ∧ CheckedInRange (putAt 121 0 41) ∧
    (∀ r ∈ fullOfReports.spans, r.id ≠ (putAt 121 0 41).identifier.toNat) ∧ fullOfReports.spans.length < 120 ∧
    (∀ r ∈ fullOfReports.spans, ¬(r.bank = .A ∧ r.position = (putAt 121 0 41).position.toNat)) ∧
    fullOfReports.directory.length = 120 ∧ Entry.vacated (putAt 121 0 41).identifier.toNat ∉ fullOfReports.directory :=
  ⟨by decide, shelf_directory, by decide, by decide +kernel, fullOfReports_directory,
    putAt_inRange (by decide) (by decide) (by decide), by decide +kernel⟩

theorem test_witness_SpanPutRefusalsGoInOrder : full.ready = true ∧ DirectoryLaw full ∧ 120 ≤ full.spans.length ∧
    (∀ r ∈ full.spans, r.id ≠ (putAt 121 0 1).identifier.toNat) ∧ (putAt 0 0 1).identifier.toNat = 0 ∧
    ¬ CheckedInRange (putAt 9 0 61) ∧ aSpan 5 .retiring .A 5 ∈ shelf.spans ∧
    (running night .switching scheduled1).jobPastQueued 1 = true ∧ DirectoryLaw (running night .switching scheduled1) ∧
    noBankB.present .B = false ∧ noBankB.jobPastQueued 1 = false ∧ DirectoryLaw noBankB ∧
    (∃ q ∈ shelf.spans, q.bank = .A ∧ q.position = (4 : Byte).toNat) ∧ shelf.spans.length < 120 ∧
    (∀ r ∈ shelf.spans, r.id ≠ (putAt 9 0 4).identifier.toNat) :=
  ⟨by decide +kernel, full_directory, by decide +kernel, by decide +kernel, by decide, fun h => absurd h.position.2 (by decide),
    by decide, by decide +kernel, directory_of rfl, by decide, by decide, directory_of rfl, by decide⟩

theorem test_witness_SpanHoldAndResumeMoveTheSpan : shelf.ready = true ∧ DirectoryLaw shelf ∧
    (∀ r ∈ shelf.spans, r.id ≠ (6 : U16).toNat) ∧ aSpan 1 .active .A 1 ∈ shelf.spans ∧
    (∃ r ∈ shelf.spans, r.id = (3 : U16).toNat ∧ r.state = .held) ∧
    (∃ r ∈ shelf.spans, r.id = (7 : U16).toNat ∧ r.state = .draft ∧ ∃ m ∈ r.landmarks, m.kind = .farEnd) ∧
    (∃ r ∈ shelf.spans, r.id = (2 : U16).toNat ∧ r.state = .draft ∧ ∀ m ∈ r.landmarks, m.kind ≠ .farEnd) ∧
    aSpan 4 .learning .A 4 ∈ shelf.spans ∧ aSpan 5 .retiring .A 5 ∈ shelf.spans :=
  ⟨by decide, shelf_directory, by decide⟩

/-- A window that the advance and both requests may open, with an ACTIVE span that has no job. -/
theorem test_witness_SpanHold_together :
    (let s : State := { shelf with timeBase := ⟨3599, 3600, 18000, false, 411, 7⟩ }
     s.ready = true ∧ DirectoryLaw s ∧ aSpan 1 .active .A 1 ∈ s.spans ∧ s.jobPlace 1 = none ∧
       OpensTheWindow s .timeAdvance ∧ OpensTheWindow s (.clockSet 17999) ∧ OpensTheWindow s (.windowSet 3599 0)) :=
  ⟨by decide, directory_of rfl, by decide, by decide, ⟨rfl, by decide +kernel, by decide +kernel⟩,
    ⟨rfl, by decide +kernel, rfl, by decide +kernel, by decide +kernel⟩,
    ⟨rfl, by decide +kernel, by decide +kernel, rfl, by decide +kernel, by decide +kernel⟩⟩

/-- The span of the first SPAN_HOLD is held together with the event, and one behind another command is not. -/
theorem test_witness_HeldTogether :
    (let s (l : List Instr) : State := { shelf with pending := l }
     HeldTogether (s [.spanHold 1, .spanHold 65535]) 1 ∧ (s [.spanHold 1, .spanHold 65535]).heldTogether = [1] ∧
     (s [.statusGet, .spanHold 1]).heldTogether = [] ∧ (s [.spanHold 2]).heldTogether = []) :=
  ⟨⟨rfl, ⟨aSpan 1 .active .A 1, by decide +kernel, rfl⟩, 1, [.spanHold 65535], rfl, rfl⟩, by decide +kernel,
    by decide +kernel, by decide +kernel⟩

/-- A demand queue of 8 jobs of other spans. -/
def eightJobs : State := demandOf ((List.range 8).map (fun i => ⟨i + 100, false⟩))

theorem test_witness_learn_and_test_requests : shelf.ready = true ∧ DirectoryLaw shelf ∧ DirectoryLaw eightJobs ∧
    eightJobs.ready = true ∧ (0 : U16).toNat = 0 ∧ (∀ r ∈ shelf.spans, r.id ≠ (6 : U16).toNat) ∧
    shelf.jobPlace 1 = none ∧ shelf.sched.demandQueue.length < 8 ∧ eightJobs.jobPlace 1 = none ∧
    8 ≤ eightJobs.sched.demandQueue.length ∧ (queued.jobPlace 1).isSome = true ∧ DirectoryLaw queued :=
  ⟨by decide, shelf_directory, directory_of rfl, by decide, by decide, by decide, by decide, by decide, by decide, by decide,
    by decide, directory_of rfl⟩

theorem test_witness_SpanRetireEmptiesTheSpan : shelf.jobPlace 1 = none ∧ queued.jobPlace 1 = some (.classQueue 1) ∧
    DirectoryLaw queued ∧ (demandOf [⟨1, true⟩]).jobPlace 1 = some (.demandQueue true) ∧
    DirectoryLaw (demandOf [⟨1, true⟩]) ∧
    (running night .switching scheduled1).jobPlace 1 = some (.channel .A scheduled1) ∧
    DirectoryLaw (running night .switching scheduled1) ∧
    (engineOf (some (analysisOf (aFlight (.test .demand 2 4) .single) [])) [demand1]).jobPlace 1 = some (.waiting demand1) ∧
    (engineOf (some (analysisOf demand1 [])) []).jobPlace 1 = some (.analysing (analysisOf demand1 [])) ∧
    DirectoryLaw (engineOf (some (analysisOf demand1 [])) []) ∧
    (engineOf (some (analysisOf demand1 [])) []).ready = true ∧ aSpan 5 .retiring .A 5 ∈ shelf.spans :=
  ⟨by decide +kernel, by decide +kernel, directory_of rfl, by decide +kernel, directory_of rfl, by decide +kernel,
    directory_of rfl, by decide +kernel, by decide +kernel, directory_of rfl, by decide +kernel, by decide⟩

theorem test_witness_TestCancelEndsTheJob : (queued.jobPlace 1).map JobPlace.isScheduled = some true ∧
    (running night .switching demand1).jobPlace 1 = some (.channel .A demand1) ∧
    (JobPlace.channel .A demand1).isScheduled = false ∧ DirectoryLaw (running night .switching demand1) ∧
    (engineOf (some { analysisOf demand1 [] with flight := { demand1 with cancelled := true } }) []).jobPlace 1 =
      some (.analysing { analysisOf demand1 [] with flight := { demand1 with cancelled := true } }) :=
  ⟨by decide, by decide +kernel, by decide, directory_of rfl, by decide +kernel⟩

/-- A list of 31 entries, for the bounds of a list. -/
def longList : List Landmark := (List.range 31).map (fun i => ⟨i, .splice, 0, 0⟩)

/-- The shelf with this list on span 2. -/
def listed (list : List Landmark) : State :=
  { shelf with directory := [.span { aSpan 2 .draft .A 2 with landmarks := list }] }

theorem listed_directory (list : List Landmark) : DirectoryLaw (listed list) := by
  refine ⟨(by decide : ([2] : List Nat).Pairwise (· < ·)), (by decide : 1 ≤ 120), fun r hr => ?_⟩
  have h : r = { aSpan 2 .draft .A 2 with landmarks := list } := by
    simpa [listed, State.spans, Entry.span?] using hr
  exact h ▸ aSpan_inRange list (by decide) (by decide)

/-- One entry at the greatest distance. -/
def lastMark : Landmark := ⟨12000000, .farEnd, 7, 0⟩

theorem test_witness_MarksAppendJoinsTheTail : (listed longList).ready = true ∧ DirectoryLaw (listed longList) ∧
    Carriable [lastMark] ∧ (∀ m ∈ [lastMark], m.distance ≤ 12000000) ∧ InOrder (longList ++ [lastMark]) ∧
    longList.length + [lastMark].length ≤ 32 ∧
    ((listed longList).spans.map (fun q => q.landmarks.length)).sum + [lastMark].length ≤ 2048 :=
  ⟨by decide, listed_directory _, ⟨by decide, by decide⟩, by decide, (by decide +kernel :
    (longList ++ [lastMark]).Pairwise (fun a b => a.distance < b.distance ∧ a.kind ≠ .farEnd)), by decide, by decide +kernel⟩

/-- 64 spans with full lists, and one with an empty list: the pool has no entry free. -/
def crowded : State :=
  { shelf with directory := (List.range 65).map (fun i =>
      Entry.span { aSpan (i + 1) .draft (if i < 60 then .A else .B) (i % 60 + 1) with
        landmarks := (longList ++ [lastMark]).drop (i / 64 * 32) }) }

theorem crowded_directory : DirectoryLaw crowded := by
  refine ⟨by decide +kernel, by decide +kernel, fun r hr => ?_⟩
  have hs : crowded.spans = (List.range 65).map (fun i =>
      { aSpan (i + 1) .draft (if i < 60 then .A else .B) (i % 60 + 1) with
        landmarks := (longList ++ [lastMark]).drop (i / 64 * 32) }) := by decide +kernel
  rw [hs, List.mem_map] at hr
  obtain ⟨i, hi, rfl⟩ := hr
  have : i < 65 := List.mem_range.mp hi
  exact aSpan_inRange _ (by omega) (by omega)

/-- Two entries beyond a list of 31. -/
def twoMarks : List Landmark := [⟨1000, .splice, 0, 0⟩, ⟨1001, .splice, 0, 0⟩]

theorem test_witness_MarksAppendRefusalsGoInOrder : shelf.ready = true ∧ DirectoryLaw shelf ∧
    ([0, 1] : List Byte).length < 3 ∧ 16 < (17 : Byte).toNat ∧ ([] : List Byte).length ≠ 9 * (1 : Byte).toNat ∧
    (2 : U16).toNat ≠ 0 ∧ Carriable [lastMark] ∧ Carriable twoMarks ∧
    (∀ r ∈ shelf.spans, r.id ≠ (6 : U16).toNat) ∧ aSpan 1 .active .A 1 ∈ shelf.spans ∧
    aSpan 2 .draft .A 2 ∈ shelf.spans ∧ 12000000 < ({ lastMark with distance := 12000001 } : Landmark).distance ∧
    DirectoryLaw (listed longList) ∧ ListLaw longList ∧ ¬ InOrder (longList ++ longList.take 1) ∧
    InOrder (longList ++ twoMarks) ∧ 32 < longList.length + twoMarks.length := by
  have order : (longList ++ twoMarks).Pairwise (fun a b => a.distance < b.distance ∧ a.kind ≠ .farEnd) := by
    decide +kernel
  have disorder : ¬ (longList ++ longList.take 1).Pairwise (fun a b => a.distance < b.distance ∧ a.kind ≠ .farEnd) := by
    decide +kernel
  exact ⟨by decide, shelf_directory, by decide, by decide, by decide, by decide, ⟨by decide, by decide⟩,
    ⟨by decide, by decide⟩, by decide, by decide, by decide, by decide, listed_directory _, ⟨by decide, by decide +kernel⟩,
    disorder, order, by decide⟩

/-- The bytes of one entry of kind byte 4. -/
def badKind : List Byte := [0, 0, 0, 9, 4, 0, 0, 0, 0]

theorem test_witness_MarksAppend_bodies : badKind.length = 9 * (1 : Byte).toNat ∧ badKind[9 * 0 + 4]? = some 4 ∧
    3 < (4 : Byte).toNat ∧ (∀ r ∈ shelf.spans, r.id ≠ 256 * (0 : Byte).toNat + (6 : Byte).toNat) ∧
    (∃ r ∈ shelf.spans, r.id = 256 * (0 : Byte).toNat + (1 : Byte).toNat ∧ r.state = .active) ∧
    (∃ r ∈ shelf.spans, r.id = 256 * (0 : Byte).toNat + (2 : Byte).toNat ∧ r.state = .draft) := by decide

theorem test_witness_MarksAppend_pool_full : crowded.ready = true ∧ DirectoryLaw crowded ∧
    (∃ r ∈ crowded.spans, r.id = (65 : U16).toNat ∧ r.state = .draft ∧ r.landmarks = []) ∧ ListLaw [] ∧
    InOrder ([] ++ [lastMark]) ∧ 2048 < (crowded.spans.map (fun q => q.landmarks.length)).sum + [lastMark].length :=
  ⟨by decide +kernel, crowded_directory, by decide +kernel, ⟨by decide, by decide⟩,
    (by decide : [lastMark].Pairwise (fun a b => a.distance < b.distance ∧ a.kind ≠ .farEnd)), by decide +kernel⟩

theorem test_witness_MarksReadAndClear : shelf.ready = true ∧ DirectoryLaw shelf ∧ (0 : U16).toNat = 0 ∧
    32 < (33 : Byte).toNat ∧ (6 : U16).toNat ≠ 0 ∧ (∀ r ∈ shelf.spans, r.id ≠ (6 : U16).toNat) ∧ (32 : Byte).toNat ≤ 32 ∧
    aSpan 2 .draft .A 2 ∈ shelf.spans ∧ { aSpan 3 .held .B 3 with landmarks := shortList } ∈ shelf.spans ∧
    aSpan 1 .active .A 1 ∈ shelf.spans :=
  ⟨by decide, shelf_directory, by decide⟩

theorem test_witness_CondReadsAnswerTheRecord : shelf.ready = true ∧ TableLaw shelf ∧ (0 : U16).toNat = 0 ∧
    (∀ c ∈ shelf.table.conditions, c.tag ≠ (2 : U16).toNat) ∧ aCondition 65535 3 .bend .retired ∈ shelf.table.conditions ∧
    (∀ c ∈ shelf.table.conditions, c.span = (1 : U16).toNat → c.tag ≤ (7 : U16).toNat) ∧
    (∃ c ∈ shelf.table.conditions, c.span = (1 : U16).toNat ∧ (0 : U16).toNat < c.tag ∧
      ∀ d ∈ shelf.table.conditions, d.span = (1 : U16).toNat → (0 : U16).toNat < d.tag → c.tag ≤ d.tag) :=
  ⟨by decide, shelf_table, by decide⟩

theorem test_witness_CondAckAndRetire : shelf.ready = true ∧ TableLaw shelf ∧
    aCondition 65535 3 .bend .retired ∈ shelf.table.conditions ∧ aCondition 7 1 .loss .confirmed ∈ shelf.table.conditions ∧
    (∀ c ∈ shelf.table.conditions, c.tag ≠ (2 : U16).toNat) :=
  ⟨by decide, shelf_table, by decide⟩

theorem test_witness_settings : shelf.ready = true ∧ 3 < (4 : Byte).toNat ∧ 1 < (2 : Byte).toNat ∧
    (3 : Fin 4).val = (3 : Byte).toNat ∧ 7 < (8 : Byte).toNat ∧ (7 : Fin 8).val = (7 : Byte).toNat ∧
    (5 : Byte).toNat ≤ 5 ∧ (64 : Byte).toNat ∈ [1, 2, 4, 8, 16, 32, 64] ∧ (128 : Byte).toNat ∉ [1, 2, 4, 8, 16, 32, 64] := by
  decide

theorem test_witness_CoilSetStoresTheCoil : shelf.ready = true ∧ bankOfByte 1 = some .B ∧ shelf.present .B = true ∧
    noBankB.ready = true ∧ noBankB.present .B = false := by decide

/-- The shelf with bank A out of service at a commanded position. -/
def broken (position : Nat) : State :=
  { shelf with
    banks := { shelf.banks with
      a := { presentBankAtReset with service := .outOfService, commanded := position, motion := .still } } }

theorem test_witness_BankRestoreDrivesTheBankHome : (broken 0).ready = true ∧ bankOfByte 0 = some .A ∧
    (broken 0).present .A = true ∧ ((broken 0).banks.get .A).service = .outOfService ∧
    ((broken 0).banks.get .A).holder = none ∧ ((broken 0).banks.get .A).commanded = 0 ∧ (broken 60).ready = true ∧
    ((broken 60).banks.get .A).commanded ≠ 0 ∧ (shelf.banks.get .A).service = .inService := by decide

theorem test_witness_TimeSetsAndAdvancesTestTheWindow : shelf.ready = true ∧ (86399 : U32).toNat ≤ 86399 ∧
    86399 < (86400 : U32).toNat := by decide

/-- The shelf with a window set and the clock outside it. -/
def day : State := { shelf with timeBase := ⟨0, 3600, 18000, false, 411, 1000000000⟩ }

theorem test_witness_WindowOpenQueuesTheDueSpans : day.ready = true ∧ (3600 : U32).toNat ≤ 86399 ∧
    day.timeBase.windowOpen = false ∧ Inside (3600 : U32).toNat day.timeBase.openTime day.timeBase.closeTime :=
  ⟨by decide, by decide, by decide, by decide, by decide⟩

/-- The window opens on the clock's time, by a WINDOW_SET and, over midnight, by the advance. -/
theorem test_witness_WindowOpens_by_setting_and_advance :
    (0 : U32).toNat ≤ 86399 ∧ Inside day.timeBase.timeOfDay (0 : U32).toNat (86399 : U32).toNat ∧
    (let s : State := { shelf with timeBase := ⟨86399, 0, 18000, false, 411, 1000000000⟩ }
     s.timeBase.windowOpen = false ∧
       Inside ((s.timeBase.timeOfDay + 1) % 86400) s.timeBase.openTime s.timeBase.closeTime) :=
  ⟨by decide, ⟨by decide, by decide⟩, rfl, by decide, by decide⟩

/-- A firing stage of 1310 nm with so many shots done. -/
def cutAt (shots : Nat) : State := running queued (.firing1310 0) { scheduled1 with shotsDone := shots }

theorem test_witness_WindowCloseDiscardsDropsAndCuts : (18000 : U32).toNat ≤ 86399 ∧
    ¬ Inside (18000 : U32).toNat night.timeBase.openTime night.timeBase.closeTime ∧
    (cutAt 64).ready = true ∧ (cutAt 64).timeBase.windowOpen = true ∧
    (cutAt 64).channels.a.activity = .busy (.firing1310 0) { scheduled1 with shotsDone := 64 } ∧
    (cutAt 63).channels.a.activity = .busy (.firing1310 0) { scheduled1 with shotsDone := 63 } ∧
    (running night (.guard 5) scheduled1).channels.a.activity = .busy (.guard 5) scheduled1 ∧ scheduled1.plan = .dual ∧
    (running night .switching { scheduled1 with plan := .single }).timeBase.windowOpen = true :=
  ⟨by decide, fun h => absurd h.2 (by decide), by decide, by decide, rfl, rfl, rfl, rfl, by decide⟩

/-- A cut of a job that stands nowhere else: the law of jobs, its bank, its 1310 nm buffer and a free buffer. -/
theorem test_witness_WindowClose_writes_the_trace :
    JobLaw (running night (.firing1310 0) { scheduled1 with shotsDone := 64 }) ∧
    (running night (.firing1310 0) { scheduled1 with shotsDone := 64 }).buffers.get 1 = some ⟨.span 1, .nm1310, none⟩ ∧
    (running night (.firing1310 0) { scheduled1 with shotsDone := 64 }).buffers.get 2 = none ∧
    ((running night (.firing1310 0) { scheduled1 with shotsDone := 64 }).banks.get .A).holder = some .A ∧
    ((running night (.firing1310 0) { scheduled1 with shotsDone := 64 }).banks.get .B).holder = none :=
  ⟨jobLaw_of (by decide +kernel) (by decide +kernel) (by decide +kernel) (by decide +kernel), rfl, rfl, rfl, rfl⟩

/-- The window closes by a WINDOW_SET that leaves none, and by the advance to its close time. -/
theorem test_witness_WindowCloses_by_setting_and_advance :
    night.ready = true ∧ night.timeBase.windowOpen = true ∧
    ¬ Inside night.timeBase.timeOfDay (7 : U32).toNat (7 : U32).toNat ∧
    (let s : State := { cutAt 64 with timeBase := ⟨17999, 3600, 18000, true, 12, 1000000000⟩ }
     s.timeBase.windowOpen = true ∧
       ¬ Inside ((s.timeBase.timeOfDay + 1) % 86400) s.timeBase.openTime s.timeBase.closeTime) :=
  ⟨by decide, rfl, fun h => h.1 rfl, rfl, fun h => absurd h.2 (by decide)⟩

theorem test_witness_InhibitStopsAndFreesTheChannels :
    (running night .switching scheduled1).channels.a.activity.flight? = some scheduled1 ∧
    (running night .switching scheduled1).timeBase.windowOpen = true ∧
    (running shelf .switching scheduled1).timeBase.windowOpen = false ∧
    DirectoryLaw (running night .switching scheduled1) ∧
    (running night .switching demand1).channels.a.activity.flight? = some demand1 ∧
    (running night .switching demand1).channels.b.activity.flight? = none ∧
    (running night .switching demand1).demandAt .A = [⟨1, false⟩] ∧ (running night .switching demand1).demandAt .B = [] ∧
    (running night .switching scheduled1).scheduledOfClass .A 1 = [1] ∧
    (running night .switching scheduled1).scheduledOfClass .A 2 = [] ∧
    (running shelf .switching scheduled1).scheduledAt .A = [1] ∧
    (after (exec .inhibitAsserted shelf)).inputs.inhibit = true :=
  ⟨rfl, by decide, by decide, directory_of rfl, rfl, rfl, rfl, rfl, by decide +kernel, by decide +kernel, rfl, by decide⟩

theorem test_witness_SettleCompletionGuardsOrFaults : (shelf.banks.get .A).motion = .moving 30000000 ∧
    (shelf.banks.get .A).holder = none ∧ (switching.banks.get .A).motion = .moving 30000000 ∧
    (switching.banks.get .A).holder = some .A ∧ switching.channels.a.activity = .busy .switching scheduled1 ∧
    ((some 20 : Sense)).map Fin.val = some (switching.banks.get .A).commanded ∧
    (none : Sense).map Fin.val ≠ some (switching.banks.get .A).commanded ∧ BankLaw switching := by
  refine ⟨rfl, rfl, rfl, rfl, rfl, by decide, by decide, by decide +kernel, fun l ch h => ?_, fun l h => ?_⟩
  · cases l <;> cases ch <;> first | rfl | exact absurd h (by decide)
  · cases l <;> exact absurd h (by decide)

theorem test_witness_GuardCompletionEndsOrFires :
    (running night (.guard 5) scheduled1).channels.a.activity = .busy (.guard 5) scheduled1 ∧
    night.thresholds.overload ≤ levelOf (10000 * 800000 / 800000) ∧ levelOf (9997 * 800000 / 800000) < night.thresholds.overload ∧
    night.thresholds.live ≤ levelOf (64 * 800000 / 800000) ∧ levelOf (63 * 800000 / 800000) < night.thresholds.live ∧
    (running night (.guard 5) { scheduled1 with work := .verify .A ⟨5, 14680⟩ }).channels.a.activity =
      .busy (.guard 5) { scheduled1 with work := .verify .A ⟨5, 14680⟩ } := by
  refine ⟨rfl, ?_⟩
  decide +kernel

/-- A profile of 512 points, and a job on it. -/
def shortFlight (shots : Nat) : Flight :=
  { scheduled1 with snapshot := snapshotOf 0 ⟨0, 1, 512, 6, 8, 1000, 1000⟩, shotsDone := shots }

theorem test_witness_ShotsAddToTheAccumulator :
    (running night (.firing1625 9) (shortFlight 63)).channels.a.activity = .busy (.firing1625 9) (shortFlight 63) ∧
    (shortFlight 63).snapshot.rangeBins =
      (shortFlight 63).snapshot.profile.pointCount * (shortFlight 63).snapshot.profile.spacing ∧
    (List.replicate 512 (7 : U16)).length = (shortFlight 63).snapshot.rangeBins ∧
    (shortFlight 63).shotsDone < (shortFlight 63).snapshot.shots ∧
    (running night (.firing1625 9) (shortFlight 63)).channels.a.accumulator.length =
      (shortFlight 63).snapshot.profile.pointCount := by
  refine ⟨rfl, ?_⟩
  decide +kernel

theorem test_witness_AcquisitionCompletionWritesTheTrace :
    (running night (.firing1625 9) (shortFlight 64)).channels.a.activity = .busy (.firing1625 9) (shortFlight 64) ∧
    (running night (.firing1310 9) (shortFlight 64)).channels.a.activity = .busy (.firing1310 9) (shortFlight 64) ∧
    (shortFlight 64).snapshot.shots ≤ (shortFlight 64).shotsDone ∧ (shortFlight 64).plan = .dual ∧
    (aFlight demand1.work .single).plan = .single :=
  ⟨rfl, rfl, by decide, rfl, rfl⟩

/-- A SINGLE job with its last shot done, and an engine with nothing to do. -/
def lastShot : State := running shelf (.firing1625 9) { shortFlight 64 with plan := .single }

/-- The flight that the hand-on makes of that job. -/
def handed : Flight :=
  { shortFlight 64 with plan := .single, recorded := some { trim := 0, degraded := false } }

theorem test_witness_HandsOn_taken : lastShot.engine = { queue := [], current := none } ∧
    Takeable (after (exec (.acquisitionCompletion .A) lastShot)) handed := by
  refine ⟨rfl, by decide +kernel, fun kind id rev h => ?_⟩
  cases h
  exact ⟨aSpan 1 .active .A 1, by decide +kernel, by decide⟩

theorem test_witness_IdleStepsAndUnawaitedEvents : (absentBank).motion = .still ∧
    shelf.channels.a.activity = .idle ∧ shelf.inputs.inhibit = false ∧ shelf.engine.current = none ∧
    shelf.engine.queue = [] := by decide

theorem test_witness_DispatchPassLeavesBusyChannels : shelf.channels.a.activity = .idle ∧
    shelf.timeBase.windowOpen = false ∧
    (∀ j : Fin 4, shelf.eligible .A (.test (.scheduled j) 9) = false) ∧
    (running shelf .switching scheduled1).channels.a.activity = .busy .switching scheduled1 ∧
    (running night .switching demand1).channels.a.activity = .busy .switching demand1 := by
  refine ⟨rfl, rfl, by decide +kernel, rfl, rfl⟩

/-- Both channels busy, one with a SCHEDULED job of class 0, which is not pre-emptible, and a DEMAND job waiting. -/
def unyielding : State :=
  { night with
    sched := { night.sched with demandQueue := [⟨2, false⟩] }
    channels :=
      { a := { night.channels.a with activity := .busy .switching (aFlight (.test (.scheduled 0) 1 4) .single) }
        b := { night.channels.b with activity := .busy .switching (aFlight (.test .learn 4 4) .single) } } }

theorem test_witness_DispatchPass_changes_nothing : (State.reset.choose .A).job = none ∧
    (State.reset.choose .B).job = none ∧ State.reset.timeBase.windowOpen = false ∧
    (night.choose .A).job = none ∧ (night.choose .B).job = none ∧ (∀ d ∈ night.sched.demandQueue, d.learn = true) ∧
    (∀ ch, (unyielding.channels.get ch).activity = .idle → (unyielding.choose ch).job = none) ∧
    ∀ ch f c id rev, (unyielding.channels.get ch).activity.flight? = some f → f.work = .test (.scheduled c) id rev →
      (unyielding.sched.classes.get c).preemptible = false := by
  refine ⟨by decide +kernel, by decide +kernel, by decide, by decide +kernel, by decide +kernel, by decide,
    fun ch h => ?_, fun ch f c id rev h hw => ?_⟩
  · cases ch <;> exact absurd h (by decide +kernel)
  · cases ch <;> cases h <;> cases hw
    rfl

/-- Channel A busy, and a SCHEDULED job of span 65535 for channel B, whose bank is STILL at a position. -/
def besideA (position : Nat) : State :=
  let s := running { night with sched := { night.sched with classQueues := ⟨[], [65535], [], []⟩ } } .switching demand1
  { s with banks := s.banks.set .B { s.banks.b with motion := .still, commanded := position, sensed := some position } }

theorem test_witness_DispatchTakesTheJob_at_channel_B : (besideA 60).channels.b.activity = .idle ∧
    (besideA 60).channels.a.activity ≠ .idle ∧ ((besideA 60).choose .B).job = some (.test (.scheduled 1) 65535) ∧
    (besideA 60).portOf (.test (.scheduled 1) 65535) = some (.B, 60) ∧
    (∀ d ∈ (besideA 60).sched.demandQueue, d.learn = true) ∧ ((besideA 60).banks.get .B).motion = .still ∧
    ((besideA 60).banks.get .B).commanded = 60 ∧ ((besideA 0).choose .B).job = some (.test (.scheduled 1) 65535) ∧
    ((besideA 0).banks.get .B).commanded ≠ 60 ∧ (some 60 : Sense).map Fin.val = some 60 ∧
    (some 59 : Sense).map Fin.val ≠ some 60 ∧ DirectoryLaw (besideA 60) :=
  ⟨rfl, by decide +kernel, by decide +kernel, by decide +kernel, by decide, rfl, rfl, by decide +kernel, by decide,
    by decide, by decide, directory_of rfl⟩

/-- In the state of the mismatch the law of the banks holds, and the pulse code of the job's profile names its bins. -/
theorem test_witness_DispatchTakesTheJob_mismatch : BankLaw (besideA 60) ∧
    ([4, 12, 40, 120, 400, 1200] : List Nat)[(besideA 60).profiles.x2.pulseCode]? = some 120 := by
  refine ⟨⟨by decide +kernel, fun l ch h => ?_, fun l h => ?_⟩, by decide +kernel⟩
  · cases l <;> cases ch <;> first | rfl | exact absurd h (by decide)
  · cases l <;> exact absurd h (by decide)

theorem test_witness_DispatchTakesTheChosenJob : queued.channels.a.activity = .idle ∧
    (queued.choose .A).job = some (.test (.scheduled 1) 1) ∧ queued.portOf (.test (.scheduled 1) 1) = some (.A, 1) ∧
    (∀ d ∈ queued.sched.demandQueue, d.learn = true) ∧ (queued.banks.get .A).motion ≠ .still ∧
    (queued.banks.get .A).commanded ≠ 1 ∧ DirectoryLaw queued :=
  ⟨rfl, by decide +kernel, by decide +kernel, by decide, by decide, by decide, directory_of rfl⟩

/-- The night with a verify job, a demand job, and jobs in a strict and a weighted class. -/
def choices : State :=
  { night with sched := { night.sched with
      classQueues := ⟨[1], [65535], [], []⟩, demandQueue := [⟨2, false⟩], verifyPlaces := ⟨true, false⟩ } }

/-- The night with the weighted class's credit spent. -/
def spent : State :=
  { queued with sched := { queued.sched with classes := ⟨⟨0, false, 0⟩, ⟨8, true, 0⟩, ⟨4, true, 0⟩, ⟨1, true, 1⟩⟩ } }

theorem test_witness_ChoiceGoesVerifyDemandStrictWeighted :
    choices.sched.verifyPlaces.get .A = true ∧ choices.eligible .A (.verify .A) = true ∧
    choices.sched.verifyPlaces.get .B = false ∧ choices.eligible .B (.test .demand 2) = true ∧
    (choices.sched.classes.get 0).weight = 0 ∧ choices.eligible .B (.test (.scheduled 0) 1) = true ∧
    queued.sched.verifyPlaces.get .A = false ∧ queued.sched.demandQueue = [] ∧ queued.sched.classQueues.get 0 = [] ∧
    (queued.sched.classes.get 1).weight ≠ 0 ∧ queued.sched.classQueues.get 1 = [] ++ 1 :: [] ∧
    queued.eligible .A (.test (.scheduled 1) 1) = true ∧ 0 < (queued.sched.classes.get 1).credit ∧
    (spent.sched.classes.get 1).credit = 0 ∧ spent.eligible .A (.test (.scheduled 1) 1) = true := by decide +kernel

/-- Jobs wait and none is eligible: the shelf has no bank B, and the jobs are of spans on it. -/
def unreachable : State :=
  { noBankB with sched := { noBankB.sched with classQueues := ⟨[3], [65535], [], []⟩, demandQueue := [⟨7, false⟩] } }

theorem test_witness_Choice_of_nothing : unreachable.sched.verifyPlaces.get .A = false ∧
    (∀ d ∈ unreachable.sched.demandQueue, unreachable.eligible .A d.job = false) ∧
    (∀ k, ∀ i ∈ unreachable.sched.classQueues.get k, unreachable.eligible .A (.test (.scheduled k) i) = false) := by
  decide +kernel

/-- Channel A runs a SCHEDULED test of span 1 and channel B a LEARN test of span 4; span 2 waits for a DEMAND test. -/
def contended : State :=
  { running { night with sched := { night.sched with demandQueue := [⟨2, false⟩] } } .switching scheduled1 with
    channels :=
      { a := (running night .switching scheduled1).channels.a
        b := { night.channels.b with activity := .busy .switching (aFlight (.test .learn 4 4) .single) } } }

theorem test_witness_PreemptionGivesTheChannelToTheDemandJob : contended.timeBase.windowOpen = true ∧
    DirectoryLaw contended ∧ contended.channels.a.activity = .busy .switching scheduled1 ∧
    (contended.sched.classes.get 1).preemptible = true ∧
    (contended.channels.get .B).activity.flight? = some (aFlight (.test .learn 4 4) .single) ∧
    contended.sched.demandQueue = [{ span := 2, learn := false }] ∧ aSpan 2 .draft .A 2 ∈ contended.spans ∧
    aSpan 1 .active .A 1 ∈ contended.spans ∧ contended.present .A = true ∧ (contended.banks.get .A).service = .inService ∧
    (contended.banks.get .A).holder ≠ some .B ∧ contended.inputs.inhibit = false ∧ contended.fitted .A = true ∧
    2 ≤ (([0, 1, 2, 3] : List (Fin 4)).filter
      (fun i => ((contended.buffers.get i).filter (fun h => h.holder != .span 1)).isNone)).length ∧
    (contended.banks.get .A).commanded ≠ 2 :=
  ⟨rfl, directory_of rfl, rfl, rfl, rfl, rfl, by decide, by decide, rfl, rfl, by decide, rfl, rfl, by decide +kernel,
    by decide⟩

/-- Both channels run a SCHEDULED test while DEMAND tests of spans 2 and 4 wait, and no bank is held. -/
def twoVictims (a b : Flight) : State :=
  { night with
    sched := { night.sched with demandQueue := [⟨2, false⟩, ⟨3, true⟩, ⟨4, false⟩] }
    channels :=
      { a := { night.channels.a with activity := .busy .switching a }
        b := { night.channels.b with activity := .busy .switching b } } }

/-- For the choice of the victim: one candidate, none, and two, of which B's is of the higher class, dispatched later, and
on a par with A's; and A's is dispatched later. -/
theorem test_witness_victims :
    (contended.victimFor 2).map (fun v => (v.channel, v.span)) = some (.A, 1) ∧ unyielding.victimFor 2 = none ∧
    (let at' (c : Fin 4) (id time : Nat) : Flight :=
       { aFlight (.test (.scheduled c) id 4) .single with dispatchTime := time }
     ((twoVictims (at' 1 1 9) (at' 2 65535 3)).victimFor 2).map Victim.channel = some .B ∧
     ((twoVictims (at' 1 1 3) (at' 1 65535 9)).victimFor 2).map Victim.channel = some .B ∧
     ((twoVictims (at' 1 1 3) (at' 1 65535 3)).victimFor 2).map Victim.channel = some .B ∧
     ((twoVictims (at' 1 1 9) (at' 1 65535 3)).victimFor 2).map Victim.channel = some .A) ∧
    (twoVictims scheduled1 scheduled1).waitingDemand = [2, 4] ∧
    (twoVictims scheduled1 scheduled1).timeBase.windowOpen = true ∧
    ∀ ch, ((twoVictims scheduled1 scheduled1).channels.get ch).activity ≠ .idle := by
  refine ⟨by decide +kernel, by decide +kernel, by decide +kernel, by decide, rfl, fun ch => ?_⟩
  cases ch <;> exact Activity.noConfusion

/-- Both channels IDLE in an open window, a DEMAND test of span 2 whose port bank A stands at, and a SCHEDULED test. -/
def bothIdle : State :=
  { night with
    sched := { night.sched with classQueues := ⟨[], [65535], [], []⟩, demandQueue := [⟨2, false⟩] }
    banks := night.banks.set .A { night.banks.a with motion := .still, commanded := 2, sensed := some 2 } }

/-- A pass gives channel A the DEMAND test, guarded or ended by the sense, and channel B the other job. -/
theorem test_pass_of_idle_channels :
    (let t := after (exec (.dispatchPass (some 2) none) bothIdle)
     (t.channels.a.activity.flight?.map (fun f => f.work.id), t.channels.b.activity.flight?.map (fun f => f.work.id)) =
       (some (.span 2), some (.span 65535)) ∧ t.banks.a.holder = some .A ∧ t.banks.b.holder = some .B ∧
     t.now = bothIdle.now + 1) ∧
    (let t := after (exec (.dispatchPass none none) bothIdle)
     t.channels.a.activity = .idle ∧ t.banks.a.service = .outOfService ∧ t.sched.demandQueue = []) := by decide +kernel

/-- The shelf with a handed-on job at the head of the analysis queue and its trace in buffer 0. -/
def handedOn : State :=
  { engineOf none [demand1] with buffers := ⟨some ⟨.span 1, .nm1625, some ⟨[5, 6], 1, 2⟩⟩, none, none, none⟩ }

theorem test_witness_AnalysisTakeCopiesTheInput : handedOn.engine.current = none ∧ handedOn.engine.queue = [demand1] ∧
    (handedOn.traceOf demand1.work.id .nm1625).map Trace.levels = some [5, 6] ∧
    (∃ r ∈ handedOn.spans, r.id = 1 ∧ r.state ≠ .retiring) ∧ DirectoryLaw handedOn :=
  ⟨rfl, rfl, by decide, by decide, directory_of rfl⟩

/-- The engine at work on a job that tests a span, with this list copy. -/
def analysing (f : Flight) (list : List Landmark) : State := engineOf (some (analysisOf f list)) []

theorem analysing_directory (f : Flight) (list : List Landmark) : DirectoryLaw (analysing f list) := directory_of rfl

theorem test_witness_AnalysisCompletionDiscardsOrFindsStale :
    (analysing demand1 []).engine.current = some (analysisOf demand1 []) ∧ DirectoryLaw (analysing demand1 []) ∧
    demand1.work = .test .demand 1 4 ∧ aSpan 1 .active .A 1 ∈ (analysing demand1 []).spans ∧
    (aSpan 1 .active .A 1).state ≠ .retiring ∧ ({ demand1 with cancelled := true } : Flight).cancelled = true ∧
    demand1.cancelled = false ∧ (aSpan 1 .active .A 1).revision ≠ 3 ∧ aSpan 5 .retiring .A 5 ∈ shelf.spans :=
  ⟨rfl, directory_of rfl, rfl, by decide, by decide, rfl, rfl, by decide, by decide⟩

/-- A cancelled job in the engine, and a job with its trace behind it. -/
def oneWaiting : State :=
  { engineOf (some (analysisOf { aFlight (.test .demand 2 4) .single with cancelled := true } [])) [demand1] with
    buffers := ⟨some ⟨.span 1, .nm1625, some ⟨[5, 6], 1, 2⟩⟩, some ⟨.span 2, .nm1625, none⟩, none, none⟩ }

theorem test_witness_Finishes_taken : oneWaiting.engine.queue = demand1 :: [] ∧
    Takeable (after (exec .analysisCompletion oneWaiting)) demand1 := by
  refine ⟨rfl, by decide +kernel, fun kind id rev h => ?_⟩
  cases h
  exact ⟨aSpan 1 .active .A 1, by decide +kernel, by decide⟩

theorem test_witness_AnalysisCompletionJudgesATest : DirectoryLaw (analysing demand1 list76) ∧
    (analysing demand1 list76).engine.current = some (analysisOf demand1 list76) ∧ (.demand : TestKind) ≠ .learn ∧
    aSpan 1 .active .A 1 ∈ (analysing demand1 list76).spans ∧ (aSpan 1 .active .A 1).revision = 4 ∧
    (analysisOf demand1 list76).input.subject = .span copy76 ∧ copy76.landmarks ≠ [] ∧
    (analysisOf demand1 []).input.subject = .span { copy76 with landmarks := [] } :=
  ⟨directory_of rfl, rfl, by decide, by decide, rfl, rfl, by decide, rfl⟩

/-- A LEARN test of span 4. -/
def learn4 : Flight := aFlight (.test .learn 4 4) .single

/-- The input copy of a learn on a trace of 512 points of one bin, for a launch offset. -/
def learnInput (levels : List Nat) (launch : Nat) : InputCopy :=
  { primary := levels, secondary := none, snapshot := snapshotOf 0 ⟨0, 1, 512, 6, 8, 1000, 1000⟩, trim := 0
    subject := .span ⟨{ fields with launchOffset := launch }, 13070, []⟩ }

/-- A LEARN job of span 4 in ANALYSING. -/
def learning (levels : List Nat) (launch : Nat) : State := engineOf (some ⟨learn4, learnInput levels launch, 5⟩) []

theorem test_witness_LearnAdoptsTheListOrEnds : DirectoryLaw (learning spike 0) ∧ learn4.work = .test .learn 4 4 ∧
    aSpan 4 .learning .A 4 ∈ shelf.spans ∧ learn4.cancelled = false ∧ (aSpan 4 .learning .A 4).revision = 4 ∧
    (extract (learnInput spike 0) ⟨fields, 13070, []⟩).endBeyondRange = false ∧
    (extract (learnInput spike 4095) ⟨{ fields with launchOffset := 4095 }, 13070, []⟩).endBeyondRange = true ∧
    (learnedList result67).length ≤ 2048 - (shelf.spans.map (fun q => q.landmarks.length)).sum ∧
    2048 - (crowded.spans.map (fun q => q.landmarks.length)).sum < (learnedList result67).length := by
  refine ⟨directory_of rfl, rfl, by decide, rfl, rfl, ?_⟩
  decide +kernel

/-- A VERIFY job of channel A in ANALYSING, on a trace of so many points. -/
def verifying (coil : Coil) (points : Nat) : Analysis :=
  { flight := aFlight (.verify .A coil) .single, due := 5
    input :=
      { primary := spike, secondary := none, snapshot := snapshotOf 7 ⟨2, 2, points, 10, 8, 800, 800⟩, trim := 0
        subject := .coil coil } }

/-- The end of fibre at point 256 gives bin 513: two coils, for the greatest timing error that is taken and one beyond it. -/
theorem test_witness_VerifyWritesTheTrim :
    (engineOf (some (verifying ⟨5000, 14680⟩ 512)) []).engine.current = some (verifying ⟨5000, 14680⟩ 512) ∧
    inputEnd? (verifying ⟨5000, 14680⟩ 512).input 0 = some 256 ∧ timingError ⟨6560, 14680⟩ 2 256 = 256 ∧
    timingError ⟨6535, 14680⟩ 2 256 = 257 ∧ inputEnd? (verifying ⟨5000, 14680⟩ 2).input 0 = none := by
  refine ⟨rfl, ?_⟩
  decide +kernel

theorem test_witness_ResultsUpdateTheConditionTable :
    (table812.conditions.map Condition.tag).Nodup ∧ table812.conditions.length < 96 ∧
    (let r : Result := ⟨4117, [⟨.loss, 501100, 300, false, false⟩], 704, 2, 3, 20⟩
     ∀ c ∈ table812.conditions, c.tag = 60 → r.considers ⟨.loss, 501100, 300, false, false⟩ c = false) ∧
    (let r : Result := ⟨4117, [⟨.loss, 501100, 300, false, false⟩], 704, 2, 3, 20⟩
     ∃ c ∈ table812.conditions, r.considers ⟨.loss, 501100, 300, false, false⟩ c = true) ∧
    (let r : Result := ⟨4117, [⟨.loss, 900000, 300, false, false⟩], 704, 2, 3, 20⟩
     ∀ c ∈ table812.conditions, r.considers ⟨.loss, 900000, 300, false, false⟩ c = false) := by decide

/-- The learn input of a spike, with a secondary trace, and the values of its span. -/
def readInput : InputCopy := { learnInput spike 0 with secondary := some spike }

/-- The values copied for that input. -/
def readCopy : SpanCopy := ⟨{ fields with launchOffset := 0 }, 13070, []⟩

/-- A trace of 1024 points with a reflection at every fifth point of its first part. -/
def combInput : InputCopy :=
  { readInput with
    primary := (List.replicate 153 [10000, 10000, 10000, 10000, 20000]).flatten ++ List.replicate 259 0
    secondary := none
    snapshot := snapshotOf 0 ⟨0, 1, 1024, 6, 4, 1000, 1000⟩ }

theorem test_witness_FindingsAndLearnedListsStayInRange :
    (let z := readOf readInput readCopy (extract readInput readCopy).endPoint
     1 ≤ z.window ∧ 1 ≤ z.guard ∧ readInput.primary.length = z.points ∧ spike.length = z.points ∧
       (extract readInput readCopy).endBeyondRange = false) ∧
    ((extract readInput readCopy).events.map Event.reflective).contains true = true ∧
    ((extract readInput readCopy).events.map Event.reflective).contains false = true ∧
    (let z := readOf combInput readCopy (extract combInput readCopy).endPoint
     1 ≤ z.window ∧ 1 ≤ z.guard ∧ combInput.primary.length = z.points) ∧
    (extract combInput readCopy).truncated = true ∧
    (extract { combInput with primary := List.replicate 1024 (10000 : Nat) } readCopy).endPoint = 4 ∧
    (extract (learnInput spike 4095) ⟨{ fields with launchOffset := 4095 }, 13070, []⟩).endBeyondRange = true := by
  decide +kernel

/-- A learn of a trace with more than 31 events keeps 31, and of two kept events at one distance the first. -/
theorem test_witness_KeptEvents :
    31 < (extract combInput readCopy).events.length ∧ (learnedList (extract combInput readCopy)).length = 32 ∧
    (∀ e ∈ result67.events, e.distance < result67.endDistance ∧ FirstAtDistance result67.events e) ∧
    (let e : Event := ⟨190, true, 793, 2600, 556, none, 36504⟩
     FirstAtDistance [e, { e with location := 191 }] e ∧
       ¬ FirstAtDistance [e, { e with location := 191 }] { e with location := 191 }) := by
  refine ⟨by decide +kernel, by decide +kernel, fun e he => ?_, ⟨[], _, rfl, by decide⟩, ?_⟩
  · fin_cases he
    · exact ⟨by decide, [], _, rfl, by decide⟩
    · exact ⟨by decide, [_], _, rfl, by decide⟩
    · exact ⟨by decide, [_, _], _, rfl, by decide⟩
  · rintro ⟨before, after, h, hb⟩
    match before with
    | [] => simp at h
    | d :: _ => exact hb d (List.mem_cons_self ..) (by rw [(List.cons.inj h).1.symm])

/-- The connector of section 7.6 takes the reflection of section 6.7, and a FAR_END takes nothing. -/
theorem test_witness_Takes :
    Takes 704 ⟨36800, .connector, 500, 2700⟩ result67.events ⟨190, true, 793, 2600, 556, some 526, 36504⟩ ∧
    ∀ e ∈ result67.events, ¬ MayTake 704 ⟨1427300, .farEnd, 0, 0⟩ e := by
  unfold Takes MayTake
  decide

/-- A full table: one condition of a state of its own, and 95 CONFIRMED ones. -/
def full96 (state : CondState) : List Condition :=
  aCondition 1 9 .loss state :: (List.range 95).map (fun i => aCondition (i + 2) 9 .loss .confirmed)

/-- Step 3 of a result, with a full table and nothing paired. -/
def folding96 (state : CondState) : Folding :=
  { table := { conditions := full96 state, tagCounter := 1, severity := defaultSeverity }, excluded := [], dropped := 0 }

theorem full96_oldest {group : Condition → Prop} {state : CondState} (h : group (aCondition 1 9 .loss state)) :
    IsOldest 20 group (full96 state) (aCondition 1 9 .loss state) :=
  ⟨[], _, rfl, h, fun _ he => absurd he List.not_mem_nil, fun e he _ => by
    obtain ⟨i, _, rfl⟩ := List.mem_map.mp he
    cases state <;> exact Nat.le_refl _⟩

theorem test_witness_Displaces : (folding96 .retired).table.conditions.length = 96 ∧
    Displaces defaultSeverity 20 .break_ (full96 .retired) (aCondition 1 9 .loss .retired) ∧
    Displaces defaultSeverity 20 .reflection (full96 .clearing) (aCondition 1 9 .loss .clearing) ∧
    Displaces defaultSeverity 20 .break_ (full96 .suspect) (aCondition 1 9 .loss .suspect) ∧
    (∀ d ∈ full96 .suspect, d.state ≠ .retired ∧ d.state ≠ .clearing ∧
      defaultSeverity.of .loss ≤ defaultSeverity.of d.kind) ∧
    (full96 .suspect).filter (fun c => !(folding96 .suspect).excluded.contains c.tag) = full96 .suspect := by
  refine ⟨by decide +kernel, Or.inl (full96_oldest rfl), Or.inr (Or.inl ⟨by decide +kernel, full96_oldest rfl⟩),
    Or.inr (Or.inr ⟨by decide +kernel, full96_oldest ⟨by decide, by decide +kernel⟩⟩), by decide +kernel, by decide +kernel⟩

/-- The result of section 8.12 has one made pair, of its first finding and the second condition. -/
theorem test_witness_PairsMade :
    (let r : Result :=
      ⟨4117, [⟨.loss, 500500, 300, false, false⟩, ⟨.loss, 501100, 300, false, false⟩], 704, 2, 3, 20⟩
     r.pairs table812.conditions = [⟨100, 0, 61⟩]) ∧
    ([⟨100, 0, 61⟩] : List Candidate).Pairwise (fun p q => p.finding ≠ q.finding ∧ p.tag ≠ q.tag) ∧
    (∃ p ∈ ([⟨100, 0, 61⟩] : List Candidate), p.finding = 0) ∧ ∀ p ∈ ([⟨100, 0, 61⟩] : List Candidate), p.finding ≠ 1 := by
  decide

end Sys2Proof.Tests
end

section
/-! PROOFS. The arithmetic of R1: what rounding, clamping, saturation and wrapping answer, case by case, and O57. -/

namespace Sys2Proof.Machine

/-! ### Rounding

`roundDiv a b` is `a / b + 1 / 2` truncated, so R1's bounds on it are those of a truncating division of `2 * a + b` by
`2 * b`; the lower one is not strict, which sends an exact half to the larger integer. -/

theorem mul_roundDiv_le (a b : Nat) : 2 * b * roundDiv a b ≤ 2 * a + b :=
  Nat.mul_div_le (2 * a + b) (2 * b)

theorem lt_mul_roundDiv_succ (a : Nat) {b : Nat} (hb : 0 < b) : 2 * a + b < 2 * b * (roundDiv a b + 1) :=
  Nat.lt_mul_div_succ (2 * a + b) (Nat.mul_pos Nat.two_pos hb)

/-! ### Clamping -/

theorem clamp_of_lt {lo x : Nat} (hi : Nat) (below : x < lo) : clamp lo hi x = lo := if_pos below

theorem clamp_of_gt {lo hi x : Nat} (range : lo ≤ hi) (above : hi < x) : clamp lo hi x = hi := by
  have notBelow : ¬ x < lo := by omega
  rw [clamp, if_neg notBelow, if_pos above]

theorem clamp_of_mem {lo hi x : Nat} (lower : lo ≤ x) (upper : x ≤ hi) : clamp lo hi x = x := by
  rw [clamp, if_neg (Nat.not_lt.mpr lower), if_neg (Nat.not_lt.mpr upper)]

/-! ### Counters -/

theorem satSucc_of_lt {top n : Nat} (h : n < top) : satSucc top n = n + 1 := if_pos h

@[simp] theorem satSucc_self (top : Nat) : satSucc top top = top := if_neg (Nat.lt_irrefl top)

theorem wrapSucc_of_lt {n : Nat} (h : n < 65535) : wrapSucc n = n + 1 :=
  Nat.mod_eq_of_lt (Nat.succ_lt_succ h)

@[simp] theorem wrapSucc_greatest : wrapSucc 65535 = 0 := Nat.mod_self 65536

end Sys2Proof.Machine

namespace Sys2Proof

open Machine in
/-- Settles O57, convention by convention: rounding, truncation, clamping, saturation, wrapping. -/
theorem arithmeticFollowsItsConventions : Obligations.ArithmeticFollowsItsConventions := by
  unfold Obligations.ArithmeticFollowsItsConventions
  refine ⟨?rounds, ?truncates, ?clamps, ?rises, ?saturates, ?counts, ?wraps⟩
  case rounds => exact fun a b hb => ⟨mul_roundDiv_le a b, lt_mul_roundDiv_succ a hb⟩
  case truncates => exact fun a b hb => ⟨Nat.mul_div_le a b, Nat.lt_mul_div_succ a hb⟩
  case clamps => exact fun lo hi x range => ⟨clamp_of_lt hi, clamp_of_gt range, clamp_of_mem⟩
  case rises => exact fun top n => satSucc_of_lt
  case saturates => exact satSucc_self
  case counts => exact fun n => wrapSucc_of_lt
  case wraps => exact wrapSucc_greatest

end Sys2Proof
end

section
/-! PROOFS. Reading the directory (R11 to R13): which record SPAN_GET, SPAN_BY_PORT and SPAN_NEXT look up, and O21. -/

namespace Sys2Proof.Machine

/-! ### The port map (R4)

Two spans are never bound to one port, so the first record found at a port is the only one there. -/

theorem eq_of_port_eq {s : State} (law : PortLaw s) {q r : SpanRecord} (hq : q ∈ s.spans) (hr : r ∈ s.spans)
    (bank : q.bank = r.bank) (position : q.position = r.position) : q = r := by
  have distinctPorts : (s.spans.map (fun a => (a.bank, a.position))).Nodup := by
    simpa [List.Nodup, List.pairwise_map, imp_iff_not_or] using law.distinct
  exact List.inj_on_of_nodup_map distinctPorts hq hr (Prod.ext bank position)

theorem boundTo_of_mem {s : State} (law : PortLaw s) {r : SpanRecord} (hr : r ∈ s.spans) :
    s.boundTo r.bank r.position = some r := by
  unfold State.boundTo
  cases found : s.spans.find? (fun q => q.bank == r.bank && q.position == r.position) with
  | none => simpa using List.find?_eq_none.mp found r hr
  | some q =>
    have samePort : q.bank = r.bank ∧ q.position = r.position := by simpa using List.find?_some found
    rw [eq_of_port_eq law (List.mem_of_find?_eq_some found) hr samePort.1 samePort.2]

theorem boundTo_eq_none {s : State} {l : Letter} {position : Nat}
    (unbound : ∀ r ∈ s.spans, ¬(r.bank = l ∧ r.position = position)) : s.boundTo l position = none := by
  unfold State.boundTo
  exact List.find?_eq_none.mpr (by simpa using unbound)

/-! ### The next span (R13)

The directory is in ascending identifier, so every record before the one with the smallest greater identifier is at or below
the identifier named. -/

theorem spanAfter_of_least {s : State} (law : DirectoryLaw s) {id : Nat} {r : SpanRecord} (hr : r ∈ s.spans)
    (greater : id < r.id) (least : ∀ q ∈ s.spans, id < q.id → r.id ≤ q.id) : s.spanAfter id = some r := by
  obtain ⟨before, after, split⟩ := List.append_of_mem hr
  have ascending : s.spans.Pairwise (fun a b => a.id < b.id) := List.pairwise_map.mp (ids_pairwise_of_law law)
  have passedOver : ∀ q ∈ before, ¬ id < q.id := fun q hq hid => by
    have smaller : q.id < r.id := by
      rw [split, List.pairwise_append] at ascending
      exact ascending.2.2 q hq r List.mem_cons_self
    have notSmaller : r.id ≤ q.id := least q (by simp [split, hq]) hid
    omega
  exact List.find?_eq_some_iff_append.mpr ⟨by simpa using greater, before, after, split, by simpa using passedOver⟩

theorem spanAfter_eq_none {s : State} {id : Nat} (last : ∀ r ∈ s.spans, r.id ≤ id) : s.spanAfter id = none := by
  unfold State.spanAfter
  exact List.find?_eq_none.mpr (by simpa using last)

@[simp] theorem discardPending_spanAfter (s : State) (id : Nat) : s.discardPending.spanAfter id = s.spanAfter id := rfl

/-! ### The acts, case by case -/

@[simp] theorem recordReply_some (r : SpanRecord) :
    recordReply (some r) = { status := .ok, body := spanRecordBytes r } := rfl

@[simp] theorem recordReply_none : recordReply none = Reply.refusal .notFound := rfl

theorem actSpanGet_of_zero {id : U16} (s : State) (zero : id.toNat = 0) :
    actSpanGet id s = (s, Reply.refusal .badField) := by
  rw [actSpanGet, if_pos zero]

theorem actSpanGet_of_ne_zero {id : U16} (s : State) (nonzero : id.toNat ≠ 0) :
    actSpanGet id s = (s, recordReply (s.findSpan id.toNat)) := by
  rw [actSpanGet, if_neg nonzero]

theorem bankOfByte_of_gt {b : Byte} (above : 1 < b.toNat) : bankOfByte b = none := by
  have notA : b.toNat ≠ 0 := by omega
  have notB : b.toNat ≠ 1 := by omega
  rw [bankOfByte, if_neg notA, if_neg notB]

theorem actSpanByPort_of_outside {bank position : Byte} (s : State)
    (outside : 1 < bank.toNat ∨ position.toNat = 0 ∨ 60 < position.toNat) :
    actSpanByPort bank position s = (s, Reply.refusal .badField) := by
  unfold actSpanByPort
  rcases outside with noBank | noPosition
  · simp [bankOfByte_of_gt noBank]
  · cases bankOfByte bank with
    | none => rfl
    | some l => exact if_pos noPosition

section Port

variable {bank position : Byte} {l : Letter} (s : State) (lower : 1 ≤ position.toNat) (upper : position.toNat ≤ 60)
  (letter : bankOfByte bank = some l)
include lower upper letter

theorem actSpanByPort_of_absent (absent : s.present l = false) :
    actSpanByPort bank position s = (s, Reply.refusal .bankAbsent) := by
  have inside : ¬(position.toNat = 0 ∨ 60 < position.toNat) := by omega
  simp [actSpanByPort, letter, inside, absent]

theorem actSpanByPort_of_present (present : s.present l = true) :
    actSpanByPort bank position s = (s, recordReply (s.boundTo l position.toNat)) := by
  have inside : ¬(position.toNat = 0 ∨ 60 < position.toNat) := by omega
  simp [actSpanByPort, letter, inside, present]

end Port

/-! ### The answers -/

section Answers

variable {s : State} (ready : s.ready = true)
include ready

theorem spanGet_zero {id : U16} (zero : id.toNat = 0) : TurnsAway (.spanGet id) s .badField :=
  turnsAway_of_act ready rfl (actSpanGet_of_zero _ zero)

theorem spanGet_notFound {id : U16} (nonzero : id.toNat ≠ 0) (unheld : ∀ r ∈ s.spans, r.id ≠ id.toNat) :
    TurnsAway (.spanGet id) s .notFound :=
  turnsAway_of_act ready rfl <| by simp [actSpanGet_of_ne_zero _ nonzero, findSpan_eq_none unheld]

theorem spanGet_found (law : DirectoryLaw s) {id : U16} {r : SpanRecord} (hr : r ∈ s.spans) (holds : r.id = id.toNat) :
    ReadsOut (.spanGet id) s (spanRecordBytes r) := by
  have nonzero : id.toNat ≠ 0 := by
    have idRange := (law.fields r hr).id
    omega
  have found : s.findSpan id.toNat = some r := holds ▸ findSpan_of_mem law hr
  exact readsOut_of_act ready rfl <| by simp [actSpanGet_of_ne_zero _ nonzero, found]

theorem spanByPort_outside {bank position : Byte}
    (outside : 1 < bank.toNat ∨ position.toNat = 0 ∨ 60 < position.toNat) :
    TurnsAway (.spanByPort bank position) s .badField :=
  turnsAway_of_act ready rfl (actSpanByPort_of_outside _ outside)

section Port

variable {bank position : Byte} {l : Letter} (lower : 1 ≤ position.toNat) (upper : position.toNat ≤ 60)
  (letter : bankOfByte bank = some l)
include lower upper letter

theorem spanByPort_absent (absent : s.present l = false) : TurnsAway (.spanByPort bank position) s .bankAbsent :=
  turnsAway_of_act ready rfl (actSpanByPort_of_absent _ lower upper letter (by simpa using absent))

theorem spanByPort_notFound (present : s.present l = true)
    (unbound : ∀ r ∈ s.spans, ¬(r.bank = l ∧ r.position = position.toNat)) :
    TurnsAway (.spanByPort bank position) s .notFound :=
  turnsAway_of_act ready rfl <| by
    simp [actSpanByPort_of_present s.discardPending lower upper letter (by simpa using present), boundTo_eq_none unbound]

theorem spanByPort_found (law : PortLaw s) (present : s.present l = true) {r : SpanRecord} (hr : r ∈ s.spans)
    (bankHere : r.bank = l) (positionHere : r.position = position.toNat) :
    ReadsOut (.spanByPort bank position) s (spanRecordBytes r) := by
  have found : s.boundTo l position.toNat = some r := bankHere ▸ positionHere ▸ boundTo_of_mem law hr
  exact readsOut_of_act ready rfl <| by
    simp [actSpanByPort_of_present s.discardPending lower upper letter (by simpa using present), found]

end Port

theorem spanNext_notFound {id : U16} (last : ∀ r ∈ s.spans, r.id ≤ id.toNat) : TurnsAway (.spanNext id) s .notFound :=
  turnsAway_of_act ready rfl <| by simp [actSpanNext, spanAfter_eq_none last]

theorem spanNext_found (law : DirectoryLaw s) {id : U16} {r : SpanRecord} (hr : r ∈ s.spans) (greater : id.toNat < r.id)
    (least : ∀ q ∈ s.spans, id.toNat < q.id → r.id ≤ q.id) : ReadsOut (.spanNext id) s (spanRecordBytes r) :=
  readsOut_of_act ready rfl <| by simp [actSpanNext, spanAfter_of_least law hr greater least]

end Answers

end Sys2Proof.Machine

namespace Sys2Proof

open Machine in
/-- Settles O21, request by request: SPAN_GET, SPAN_BY_PORT, SPAN_NEXT. -/
theorem spanReadsAnswerTheRecord : Obligations.SpanReadsAnswerTheRecord := by
  unfold Obligations.SpanReadsAnswerTheRecord
  intro s ready directory ports
  refine ⟨fun id => ?get, fun bank position => ?byPort, fun id => ?next⟩
  case get => exact ⟨spanGet_zero ready, spanGet_notFound ready, fun _ => spanGet_found ready directory⟩
  case byPort =>
    refine ⟨spanByPort_outside ready, fun lower upper l letter => ⟨?_, ?_, ?_⟩⟩
    · exact spanByPort_absent ready lower upper letter
    · exact spanByPort_notFound ready lower upper letter
    · exact fun present _ => spanByPort_found ready lower upper letter ports present
  case next => exact ⟨spanNext_notFound ready, fun _ => spanNext_found ready directory⟩

end Sys2Proof
end

section
/-! PROOFS. Reading and emptying a landmark list (R36, R37): what MARKS_READ and MARKS_CLEAR answer, and O30. -/

namespace Sys2Proof.Machine

/-! ### The span that a request names -/

theorem nonzero_of_held {s : State} (law : DirectoryLaw s) {id : Nat} {r : SpanRecord} (hr : r ∈ s.spans)
    (holds : r.id = id) : id ≠ 0 := by
  have idRange := (law.fields r hr).id
  omega

theorem findSpan_of_held {s : State} (law : DirectoryLaw s) {id : Nat} {r : SpanRecord} (hr : r ∈ s.spans)
    (holds : r.id = id) : s.findSpan id = some r :=
  holds ▸ findSpan_of_mem law hr

/-! ### When a list may change, and how its record is written -/

theorem listMayChange_eq_true_iff (st : SpanState) : st.listMayChange = true ↔ st = .draft ∨ st = .held := by
  cases st <;> simp [SpanState.listMayChange]

theorem listMayChange_eq_false_iff (st : SpanState) :
    st.listMayChange = false ↔ st = .learning ∨ st = .active ∨ st = .retiring := by
  cases st <;> simp [SpanState.listMayChange]

/-- The act writes one record built beforehand over every span of the identifier; the directory law makes it the record that
each such span would build of itself. -/
theorem spanBecomes_withList {s : State} (law : DirectoryLaw s) {r : SpanRecord} (hr : r ∈ s.spans) (list : List Landmark) :
    SpanBecomes r.id (SpanRecord.withList list) s (s.modifySpan r.id (fun _ => r.withList list)) := by
  have written := spanBecomes_modifySpan (s := s) (id := r.id) (f := fun _ => r.withList list) fun _ _ => rfl
  exact written.congr_fun fun q hq sameId => by rw [eq_of_id_eq law hq hr sameId]

/-! ### The acts, case by case -/

theorem marksReply_eq (r : SpanRecord) (start : Byte) :
    marksReply r start.toNat =
      { status := .ok
        body := be16 r.id ++ [byte r.landmarks.length] ++ be16 r.revision ++
          [start, byte (min 16 (r.landmarks.length - start.toNat))] ++
          ((r.landmarks.drop start.toNat).take 16).flatMap landmarkBytes } := by
  simp [marksReply, listStateBytes]

theorem actMarksRead_of_outside {id : U16} {start : Byte} (s : State) (outside : id.toNat = 0 ∨ 32 < start.toNat) :
    actMarksRead id start s = (s, Reply.refusal .badField) := by
  rw [actMarksRead, if_pos outside]

section Read

variable {id : U16} {start : Byte} {s : State} (nonzero : id.toNat ≠ 0) (upper : start.toNat ≤ 32)
include nonzero upper

theorem actMarksRead_of_none (unheld : s.findSpan id.toNat = none) :
    actMarksRead id start s = (s, Reply.refusal .notFound) := by
  have inside : ¬(id.toNat = 0 ∨ 32 < start.toNat) := by omega
  rw [actMarksRead, if_neg inside, unheld]

theorem actMarksRead_of_some {r : SpanRecord} (found : s.findSpan id.toNat = some r) :
    actMarksRead id start s = (s, marksReply r start.toNat) := by
  have inside : ¬(id.toNat = 0 ∨ 32 < start.toNat) := by omega
  rw [actMarksRead, if_neg inside, found]

end Read

theorem actMarksClear_of_zero {id : U16} (s : State) (zero : id.toNat = 0) :
    actMarksClear id s = (s, Reply.refusal .badField) := by
  rw [actMarksClear, if_pos zero]

section Clear

variable {id : U16} {s : State} (nonzero : id.toNat ≠ 0)
include nonzero

theorem actMarksClear_of_none (unheld : s.findSpan id.toNat = none) :
    actMarksClear id s = (s, Reply.refusal .notFound) := by
  rw [actMarksClear, if_neg nonzero, unheld]

variable {r : SpanRecord} (found : s.findSpan id.toNat = some r)
include found

theorem actMarksClear_of_fixed (fixed : r.state.listMayChange = false) :
    actMarksClear id s = (s, Reply.refusal .wrongState) := by
  simp [actMarksClear, nonzero, found, fixed]

variable (mayChange : r.state.listMayChange = true)
include mayChange

theorem actMarksClear_of_empty (empty : r.landmarks = []) :
    actMarksClear id s = (s, { status := .ok, body := listStateBytes r }) := by
  simp [actMarksClear, nonzero, found, mayChange, empty]

theorem actMarksClear_of_entries (entries : r.landmarks ≠ []) :
    actMarksClear id s =
      (s.modifySpan r.id (fun _ => r.withList []), { status := .ok, body := listStateBytes (r.withList []) }) := by
  simp [actMarksClear, nonzero, found, mayChange, entries]

end Clear

/-! ### The answers -/

section Answers

variable {s : State} (ready : s.ready = true)
include ready

theorem marksRead_outside {id : U16} {start : Byte} (outside : id.toNat = 0 ∨ 32 < start.toNat) :
    TurnsAway (.marksRead id start) s .badField :=
  turnsAway_of_act ready rfl (actMarksRead_of_outside _ outside)

theorem marksRead_notFound {id : U16} {start : Byte} (nonzero : id.toNat ≠ 0) (upper : start.toNat ≤ 32)
    (unheld : ∀ r ∈ s.spans, r.id ≠ id.toNat) : TurnsAway (.marksRead id start) s .notFound :=
  turnsAway_of_act ready rfl (actMarksRead_of_none nonzero upper (findSpan_eq_none unheld))

theorem marksClear_zero {id : U16} (zero : id.toNat = 0) : TurnsAway (.marksClear id) s .badField :=
  turnsAway_of_act ready rfl (actMarksClear_of_zero _ zero)

theorem marksClear_notFound {id : U16} (nonzero : id.toNat ≠ 0) (unheld : ∀ r ∈ s.spans, r.id ≠ id.toNat) :
    TurnsAway (.marksClear id) s .notFound :=
  turnsAway_of_act ready rfl (actMarksClear_of_none nonzero (findSpan_eq_none unheld))

section Held

variable (law : DirectoryLaw s) {id : U16} {r : SpanRecord} (hr : r ∈ s.spans) (holds : r.id = id.toNat)
include law hr holds

theorem marksRead_found {start : Byte} (upper : start.toNat ≤ 32) :
    ReadsOut (.marksRead id start) s
      (be16 r.id ++ [byte r.landmarks.length] ++ be16 r.revision ++
        [start, byte (min 16 (r.landmarks.length - start.toNat))] ++
        ((r.landmarks.drop start.toNat).take 16).flatMap landmarkBytes) := by
  have read := actMarksRead_of_some (s := s.discardPending) (nonzero_of_held law hr holds) upper
    (findSpan_of_held law hr holds)
  exact readsOut_of_act ready rfl (read.trans (by rw [marksReply_eq]))

theorem marksClear_wrongState (fixed : r.state = .learning ∨ r.state = .active ∨ r.state = .retiring) :
    TurnsAway (.marksClear id) s .wrongState :=
  turnsAway_of_act ready rfl <| actMarksClear_of_fixed (nonzero_of_held law hr holds) (findSpan_of_held law hr holds)
    ((listMayChange_eq_false_iff _).mpr fixed)

variable (mayChange : r.state = .draft ∨ r.state = .held)
include mayChange

theorem marksClear_empty (empty : r.landmarks = []) :
    ReadsOut (.marksClear id) s (be16 r.id ++ [0] ++ be16 r.revision) := by
  have cleared := actMarksClear_of_empty (s := s.discardPending) (nonzero_of_held law hr holds)
    (findSpan_of_held law hr holds) ((listMayChange_eq_true_iff _).mpr mayChange) empty
  have body : listStateBytes r = be16 r.id ++ [0] ++ be16 r.revision := by
    rw [listStateBytes, empty]
    rfl
  exact readsOut_of_act ready rfl (body ▸ cleared)

theorem marksClear_entries (entries : r.landmarks ≠ []) :
    ∃ t, exec (.marksClear id) s = .next t ∧
      Answered s t .ok (be16 r.id ++ [0] ++ be16 ((r.revision + 1) % 65536)) ∧
      KeepsBut [.link, .directory] s t ∧
      SpanBecomes r.id (fun q => { q with
        landmarks := [], revision := (q.revision + 1) % 65536, mark := true }) s t := by
  have cleared := actMarksClear_of_entries (s := s.discardPending) (nonzero_of_held law hr holds)
    (findSpan_of_held law hr holds) ((listMayChange_eq_true_iff _).mpr mayChange) entries
  have called : exec (.marksClear id) s = .next (s.exchange 5 (actMarksClear id)) := rfl
  obtain ⟨runs, answer, frame⟩ := exec_of_act ready called cleared (modifySpan_frame _ _ _) (by decide)
  exact ⟨_, runs, answer, frame, (spanBecomes_withList law hr []).congr_right rfl⟩

end Held

end Answers

end Sys2Proof.Machine

namespace Sys2Proof

open Machine in
/-- Settles O30, refusal by refusal, then for the span named: MARKS_READ, and MARKS_CLEAR by the span's state and list. -/
theorem marksReadAndClear : Obligations.MarksReadAndClear := by
  unfold Obligations.MarksReadAndClear
  intro id start s ready law
  refine ⟨?zero, ?beyond, ?notFound, fun r hr holds => ⟨?read, ?wrongState, fun mayChange => ⟨?empty, ?entries⟩⟩⟩
  case zero => exact fun zero => ⟨marksRead_outside ready (.inl zero), marksClear_zero ready zero⟩
  case beyond => exact fun beyond => marksRead_outside ready (.inr beyond)
  case notFound =>
    exact fun nonzero unheld =>
      ⟨fun upper => marksRead_notFound ready nonzero upper unheld, marksClear_notFound ready nonzero unheld⟩
  case read => exact marksRead_found ready law hr holds
  case wrongState => exact marksClear_wrongState ready law hr holds
  case empty => exact marksClear_empty ready law hr holds mayChange
  case entries => exact marksClear_entries ready law hr holds mayChange

end Sys2Proof
end

section
/-! PROOFS. The profile requests (R54 to R57): what is stored of the seven fields, what PROFILE_SET and PROFILE_GET
answer, and O36. -/

namespace Sys2Proof.Machine

/-! ### Numbers below a bound, clamped values and the status of a settled record -/

theorem finOfNat_of_le {n k : Nat} (outside : n ≤ k) : finOfNat n k = none := dif_neg (Nat.not_lt.mpr outside)

@[simp] theorem finOfNat_val {n : Nat} (i : Fin n) : finOfNat n i.val = some i := dif_pos i.isLt

theorem clamp_eq_max_min {lo hi : Nat} (range : lo ≤ hi) (x : Nat) : clamp lo hi x = max lo (min hi x) := by
  rcases lt_or_ge x lo with below | lower
  · rw [clamp_of_lt hi below]
    omega
  rcases lt_or_ge hi x with above | upper
  · rw [clamp_of_gt range above]
    omega
  · rw [clamp_of_mem lower upper]
    omega

theorem takenStatus_bne {α : Type} [DecidableEq α] (stored carried : α) :
    takenStatus (stored != carried) = if stored = carried then .ok else .clamped := by
  by_cases same : stored = carried <;> simp [takenStatus, same]

/-! ### The record stored (R55) -/

theorem settled_carriedProfile (b : ProfileFields) :
    (carriedProfile b).settled =
      { pulseCode := b.pulseCode.toNat, spacing := b.spacing.toNat
        pointCount := max 512 (min 16384 (b.pointCount.toNat / 256 * 256))
        shotExponent := max 6 (min 16 b.shotExponent.toNat), window := max 4 (min 64 b.window.toNat)
        reflectiveThreshold := max 200 (min 6000 b.reflectiveThreshold.toNat)
        endMargin := max 300 (min 3000 b.endMargin.toNat) } := by
  simp [Profile.settled, carriedProfile, clamp_eq_max_min]

theorem profiles_frame (s : State) (o : Octet Profile) : KeepsBut [.profiles] s { s with profiles := o } := by
  refine ⟨fun p unnamed => ?_⟩
  cases p
  case profiles => exact absurd (List.mem_singleton_self _) unnamed
  all_goals rfl

/-! ### The acts, case by case -/

theorem spacings_contains_eq_false_iff (x : Nat) : spacings.contains x = false ↔ x ∉ [1, 2, 4, 8, 16, 32, 64] := by
  simp [spacings]

theorem actProfileGet_of_outside {number : Byte} (s : State) (outside : 7 < number.toNat) :
    actProfileGet number s = (s, Reply.refusal .badField) := by
  rw [actProfileGet, finOfNat_of_le outside]

theorem actProfileGet_of_number {number : Byte} (s : State) {n : Fin 8} (names : n.val = number.toNat) :
    actProfileGet number s = (s, { status := .ok, body := profileBytes n.val (s.profiles.get n) }) := by
  rw [actProfileGet, ← names, finOfNat_val]

theorem actProfileSet_of_outside {b : ProfileFields} (s : State) (outside : 7 < b.number.toNat) :
    actProfileSet b s = (s, Reply.refusal .badField) := by
  rw [actProfileSet, finOfNat_of_le outside]

theorem actProfileSet_of_badCode {b : ProfileFields} (s : State)
    (bad : 5 < b.pulseCode.toNat ∨ b.spacing.toNat ∉ [1, 2, 4, 8, 16, 32, 64]) :
    actProfileSet b s = (s, Reply.refusal .badField) := by
  rw [← spacings_contains_eq_false_iff] at bad
  rw [actProfileSet]
  cases finOfNat 8 b.number.toNat with
  | none => rfl
  | some n => exact if_pos bad

theorem actProfileSet_of_fields {b : ProfileFields} (s : State) {n : Fin 8} (names : n.val = b.number.toNat)
    (pulse : b.pulseCode.toNat ≤ 5) (spacing : b.spacing.toNat ∈ [1, 2, 4, 8, 16, 32, 64]) :
    actProfileSet b s =
      ({ s with profiles := s.profiles.set n (carriedProfile b).settled },
        { status := if (carriedProfile b).settled = carriedProfile b then .ok else .clamped
          body := profileBytes n.val (carriedProfile b).settled }) := by
  have taken : ¬(5 < b.pulseCode.toNat ∨ spacings.contains b.spacing.toNat = false) := by
    rw [spacings_contains_eq_false_iff, not_or, not_not]
    exact ⟨Nat.not_lt.mpr pulse, spacing⟩
  rw [actProfileSet, ← names, finOfNat_val]
  simp only [if_neg taken, takenStatus_bne]

/-! ### The answers -/

section Answers

variable {s : State} (ready : s.ready = true)
include ready

theorem profileGet_outside {number : Byte} (outside : 7 < number.toNat) : TurnsAway (.profileGet number) s .badField :=
  turnsAway_of_act ready rfl (actProfileGet_of_outside _ outside)

theorem profileGet_number {number : Byte} {n : Fin 8} (names : n.val = number.toNat) :
    ReadsOut (.profileGet number) s (profileBytes n.val (s.profiles.get n)) :=
  readsOut_of_act ready rfl (actProfileGet_of_number s.discardPending names)

theorem profileSet_outside {b : ProfileFields} (outside : 7 < b.number.toNat) : TurnsAway (.profileSet b) s .badField :=
  turnsAway_of_act ready rfl (actProfileSet_of_outside _ outside)

theorem profileSet_badCode {b : ProfileFields}
    (bad : 5 < b.pulseCode.toNat ∨ b.spacing.toNat ∉ [1, 2, 4, 8, 16, 32, 64]) :
    TurnsAway (.profileSet b) s .badField :=
  turnsAway_of_act ready rfl (actProfileSet_of_badCode _ bad)

theorem profileSet_stores {b : ProfileFields} {n : Fin 8} (names : n.val = b.number.toNat)
    (pulse : b.pulseCode.toNat ≤ 5) (spacing : b.spacing.toNat ∈ [1, 2, 4, 8, 16, 32, 64]) :
    ∃ t, exec (.profileSet b) s = .next t ∧
      Answered s t (if (carriedProfile b).settled = carriedProfile b then .ok else .clamped)
        (profileBytes n.val (carriedProfile b).settled) ∧
      KeepsBut [.link, .profiles] s t ∧ t.profiles = s.profiles.set n (carriedProfile b).settled := by
  have called : exec (.profileSet b) s = .next (s.exchange 14 (actProfileSet b)) := rfl
  have stored := actProfileSet_of_fields s.discardPending names pulse spacing
  obtain ⟨runs, answer, frame⟩ := exec_of_act ready called stored (profiles_frame _ _) (by decide)
  exact ⟨_, runs, answer, frame, rfl⟩

end Answers

end Sys2Proof.Machine

namespace Sys2Proof

open Machine in
/-- Settles O36: PROFILE_GET by its number, then PROFILE_SET by the field that refuses it or the record it stores. -/
theorem profileSetAndGet : Obligations.ProfileSetAndGet := by
  unfold Obligations.ProfileSetAndGet
  intro s ready
  refine ⟨?getOutside, ?getNumber, ?setRefused, ?setStores⟩
  case getOutside => exact fun number => profileGet_outside ready
  case getNumber => exact fun number n => profileGet_number ready
  case setRefused =>
    rintro b (outside | bad)
    · exact profileSet_outside ready outside
    · exact profileSet_badCode ready bad
  case setStores =>
    intro b n names pulse spacing
    obtain ⟨t, runs, answer, frame, stored⟩ := profileSet_stores ready names pulse spacing
    exact ⟨t, (carriedProfile b).settled, runs, settled_carriedProfile b, answer, frame, stored⟩

end Sys2Proof
end

section
/-! PROOFS. The coil request (R74, R75): what COIL_SET stores of a bank's coil, the verify job that a coil length of 0
removes, what it answers, and O37. -/

namespace Sys2Proof.Machine

/-! ### The bank that a byte names -/

theorem byte_letterCode_of_bankOfByte {b : Byte} {l : Letter} (letter : bankOfByte b = some l) :
    byte (letterCode l) = b := by
  have code : letterCode l = b.toNat := by
    unfold bankOfByte at letter
    split at letter
    case isTrue isZero =>
      cases letter
      exact isZero.symm
    case isFalse =>
      split at letter
      case isTrue isOne =>
        cases letter
        exact isOne.symm
      case isFalse => cases letter
  rw [code, byte_of_toNat]

/-! ### The record stored (R74) -/

theorem storedCoil_eq (length groupIndex : Nat) :
    storedCoil length groupIndex =
      { length := min 12000000 length, groupIndex := max 14000 (min 15000 groupIndex) } := by
  rw [storedCoil, clamp_eq_max_min (by decide), Nat.min_comm, maxDistance]

/-- No value was replaced: both were in range. -/
theorem storedCoil_eq_carried_iff (length groupIndex : Nat) :
    storedCoil length groupIndex = { length := length, groupIndex := groupIndex } ↔
      length ≤ 12000000 ∧ 14000 ≤ groupIndex ∧ groupIndex ≤ 15000 := by
  rw [storedCoil_eq, Coil.mk.injEq]
  omega

theorem Bank.withCoil_eq (b : Bank) (c : Coil) :
    b.withCoil c = { b with coil := c, mark := b.mark || decide (c ≠ b.coil) } := by
  by_cases same : c = b.coil <;> simp [Bank.withCoil, same]

/-! ### The state that stores it (R74, R75) -/

@[simp] theorem storeCoil_banks (s : State) (l : Letter) (c : Coil) :
    (s.storeCoil l c).banks = s.banks.set l ((s.banks.get l).withCoil c) := by
  unfold State.storeCoil
  split <;> simp

@[simp] theorem storeCoil_sched (s : State) (l : Letter) (c : Coil) :
    (s.storeCoil l c).sched =
      { s.sched with verifyPlaces :=
          if c.length = 0 then s.sched.verifyPlaces.set l false else s.sched.verifyPlaces } := by
  unfold State.storeCoil
  split <;> simp

theorem dropVerify_frame (s : State) (ch : Letter) : KeepsBut [.sched] s (s.dropVerify ch) := by
  refine ⟨fun p unnamed => ?_⟩
  cases p
  case sched => exact absurd (List.mem_singleton_self _) unnamed
  all_goals rfl

theorem storeCoil_frame (s : State) (l : Letter) (c : Coil) : KeepsBut [.banks, .sched] s (s.storeCoil l c) := by
  have bankOnly : KeepsBut [.banks, .sched] s (s.setBank l ((s.banks.get l).withCoil c)) :=
    (setBank_frame ..).mono (by decide)
  unfold State.storeCoil
  split
  · exact bankOnly.trans ((dropVerify_frame ..).mono (by decide))
  · exact bankOnly

/-! ### The act, case by case -/

theorem actCoilSet_of_outside {bank : Byte} (length : U32) (groupIndex : U16) (s : State) (outside : 1 < bank.toNat) :
    actCoilSet bank length groupIndex s = (s, Reply.refusal .badField) := by
  rw [actCoilSet, bankOfByte_of_gt outside]

section Named

variable {bank : Byte} {l : Letter} (length : U32) (groupIndex : U16) {s : State} (letter : bankOfByte bank = some l)
include letter

theorem actCoilSet_of_absent (absent : s.present l = false) :
    actCoilSet bank length groupIndex s = (s, Reply.refusal .bankAbsent) := by
  simp [actCoilSet, letter, absent]

theorem actCoilSet_of_present (present : s.present l = true) :
    actCoilSet bank length groupIndex s =
      (s.storeCoil l (storedCoil length.toNat groupIndex.toNat),
        { status := if length.toNat ≤ 12000000 ∧ 14000 ≤ groupIndex.toNat ∧ groupIndex.toNat ≤ 15000 then .ok
            else .clamped
          body := coilBytes l (storedCoil length.toNat groupIndex.toNat) }) := by
  simp [actCoilSet, letter, present, takenStatus_bne, storedCoil_eq_carried_iff]

end Named

/-! ### The answers -/

section Answers

variable {bank : Byte} (length : U32) (groupIndex : U16) {s : State} (ready : s.ready = true)
include ready

theorem coilSet_outside (outside : 1 < bank.toNat) : TurnsAway (.coilSet bank length groupIndex) s .badField :=
  turnsAway_of_act ready rfl (actCoilSet_of_outside _ _ _ outside)

variable {l : Letter} (letter : bankOfByte bank = some l)
include letter

theorem coilSet_absent (absent : s.present l = false) : TurnsAway (.coilSet bank length groupIndex) s .bankAbsent :=
  turnsAway_of_act ready rfl (actCoilSet_of_absent _ _ letter (by simpa using absent))

theorem coilSet_stores (present : s.present l = true) :
    ∃ t, exec (.coilSet bank length groupIndex) s = .next t ∧
      Answered s t (if length.toNat ≤ 12000000 ∧ 14000 ≤ groupIndex.toNat ∧ groupIndex.toNat ≤ 15000 then .ok
        else .clamped) (coilBytes l (storedCoil length.toNat groupIndex.toNat)) ∧
      KeepsBut [.link, .banks, .sched] s t ∧
      t.banks = (s.storeCoil l (storedCoil length.toNat groupIndex.toNat)).banks ∧
      t.sched = (s.storeCoil l (storedCoil length.toNat groupIndex.toNat)).sched := by
  have called : exec (.coilSet bank length groupIndex) s = .next (s.exchange 10 (actCoilSet bank length groupIndex)) :=
    rfl
  have stored := actCoilSet_of_present (s := s.discardPending) length groupIndex letter (by simpa using present)
  obtain ⟨runs, answer, frame⟩ := exec_of_act ready called stored (storeCoil_frame ..) (by decide)
  refine ⟨_, runs, answer, frame, ?banks, ?sched⟩
  case banks => simp
  case sched => simp

end Answers

end Sys2Proof.Machine

namespace Sys2Proof

open Machine in
/-- Settles O37: the bank that no byte names, the absent bank, and the record stored for a present one. -/
theorem coilSetStoresTheCoil : Obligations.CoilSetStoresTheCoil := by
  unfold Obligations.CoilSetStoresTheCoil
  intro bank length groupIndex s ready
  refine ⟨?outside, fun l letter => ⟨?absent, ?stores⟩⟩
  case outside => exact coilSet_outside length groupIndex ready
  case absent => exact coilSet_absent length groupIndex ready letter
  case stores =>
    intro present
    obtain ⟨t, runs, answer, frame, banks, sched⟩ := coilSet_stores length groupIndex ready letter present
    rw [coilBytes, byte_letterCode_of_bankOfByte letter] at answer
    rw [storeCoil_banks, Bank.withCoil_eq] at banks
    exact ⟨t, storedCoil length.toNat groupIndex.toNat, runs, storedCoil_eq .., answer, frame, banks,
      sched.trans (storeCoil_sched ..)⟩

end Sys2Proof
end

section
/-! PROOFS. Reading the condition table (R154, R155): which condition COND_GET and COND_NEXT look up, and O33. -/

namespace Sys2Proof.Machine

/-! ### The condition that a tag names (R142)

The tags of the table are distinct, so the first condition found with a tag is the only one that holds it. -/

theorem eq_of_tag_eq {s : State} (law : TableLaw s) {c d : Condition} (hc : c ∈ s.table.conditions)
    (hd : d ∈ s.table.conditions) (sameTag : c.tag = d.tag) : c = d :=
  List.inj_on_of_nodup_map law.unique hc hd sameTag

theorem findCondition_of_mem {s : State} (law : TableLaw s) {c : Condition} (hc : c ∈ s.table.conditions) :
    s.findCondition c.tag = some c := by
  unfold State.findCondition
  cases found : s.table.conditions.find? (fun d => d.tag == c.tag) with
  | none => simpa using List.find?_eq_none.mp found c hc
  | some d =>
    have sameTag : d.tag = c.tag := by simpa using List.find?_some found
    rw [eq_of_tag_eq law (List.mem_of_find?_eq_some found) hc sameTag]

theorem findCondition_eq_none {s : State} {tag : Nat} (unheld : ∀ c ∈ s.table.conditions, c.tag ≠ tag) :
    s.findCondition tag = none := by
  unfold State.findCondition
  exact List.find?_eq_none.mpr (by simpa using unheld)

/-! ### The span's next condition (R155) -/

/-- A list put in order begins with the entry that no other entry is `le` to. -/
theorem head?_sortBy_of_least {α : Type} {le : α → α → Bool} (total : ∀ a b, le a b = true ∨ le b a = true)
    (trans : ∀ a b c, le a b = true → le b c = true → le a c = true) {l : List α} {x : α} (hx : x ∈ l)
    (least : ∀ y ∈ l, le y x = true → y = x) : (sortBy le l).head? = some x := by
  have ordered := pairwise_sortBy total trans l
  have members := mem_sortBy le l
  cases sorted : sortBy le l with
  | nil => exact absurd ((members x).mpr hx) (by simp [sorted])
  | cons y ys =>
    rw [sorted] at ordered members
    have hy : y ∈ l := (members y).mp List.mem_cons_self
    rcases List.mem_cons.mp ((members x).mpr hx) with rfl | later
    · rfl
    · rw [List.head?_cons, least y hy (List.rel_of_pairwise_cons ordered later)]

theorem conditionAfter_of_least {s : State} (law : TableLaw s) {id tag : Nat} {c : Condition}
    (hc : c ∈ s.table.conditions) (ofSpan : c.span = id) (greater : tag < c.tag)
    (least : ∀ d ∈ s.table.conditions, d.span = id → tag < d.tag → c.tag ≤ d.tag) :
    s.conditionAfter id tag = some c := by
  unfold State.conditionAfter
  refine head?_sortBy_of_least ?total ?trans ?mem ?least
  case total => simpa using fun a b : Condition => Nat.le_total a.tag b.tag
  case trans => simpa using fun a b d : Condition => Nat.le_trans (n := a.tag) (m := b.tag) (k := d.tag)
  case mem => simp [hc, ofSpan, greater]
  case least =>
    intro d hd notAfter
    obtain ⟨member, dOfSpan, dGreater⟩ : d ∈ s.table.conditions ∧ d.span = id ∧ tag < d.tag := by simpa using hd
    have dLe : d.tag ≤ c.tag := by simpa using notAfter
    exact eq_of_tag_eq law member hc (Nat.le_antisymm dLe (least d member dOfSpan dGreater))

theorem conditionAfter_eq_none {s : State} {id tag : Nat}
    (last : ∀ c ∈ s.table.conditions, c.span = id → c.tag ≤ tag) : s.conditionAfter id tag = none := by
  have noneLeft : s.table.conditions.filter (fun c => c.span == id && tag < c.tag) = [] := by simpa using last
  rw [State.conditionAfter, noneLeft]
  rfl

/-! ### What the acts read is as it was before the discard -/

@[simp] theorem discardPending_conditionAfter (s : State) (id tag : Nat) :
    s.discardPending.conditionAfter id tag = s.conditionAfter id tag := rfl

@[simp] theorem discardPending_conditionReply (s : State) (found : Option Condition) :
    s.discardPending.conditionReply found = s.conditionReply found := rfl

/-! ### The acts, case by case -/

@[simp] theorem conditionReply_some (s : State) (c : Condition) :
    s.conditionReply (some c) =
      { status := .ok, body := conditionBytes c ++ [byte (s.table.severity.of c.kind)] } := rfl

@[simp] theorem conditionReply_none (s : State) : s.conditionReply none = Reply.refusal .notFound := rfl

theorem actCondGet_of_zero {tag : U16} (s : State) (zero : tag.toNat = 0) :
    actCondGet tag s = (s, Reply.refusal .badField) := by
  rw [actCondGet, if_pos zero]

theorem actCondGet_of_ne_zero {tag : U16} (s : State) (nonzero : tag.toNat ≠ 0) :
    actCondGet tag s = (s, s.conditionReply (s.findCondition tag.toNat)) := by
  rw [actCondGet, if_neg nonzero]

theorem actCondNext_of_zero {id : U16} (tag : U16) (s : State) (zero : id.toNat = 0) :
    actCondNext id tag s = (s, Reply.refusal .badField) := by
  rw [actCondNext, if_pos zero]

theorem actCondNext_of_ne_zero {id : U16} (tag : U16) (s : State) (nonzero : id.toNat ≠ 0) :
    actCondNext id tag s = (s, s.conditionReply (s.conditionAfter id.toNat tag.toNat)) := by
  rw [actCondNext, if_neg nonzero]

/-! ### The answers -/

section Answers

variable {s : State} (ready : s.ready = true)
include ready

theorem condGet_zero {tag : U16} (zero : tag.toNat = 0) : TurnsAway (.condGet tag) s .badField :=
  turnsAway_of_act ready rfl (actCondGet_of_zero _ zero)

theorem condGet_notFound {tag : U16} (nonzero : tag.toNat ≠ 0)
    (unheld : ∀ c ∈ s.table.conditions, c.tag ≠ tag.toNat) : TurnsAway (.condGet tag) s .notFound :=
  turnsAway_of_act ready rfl <| by simp [actCondGet_of_ne_zero _ nonzero, findCondition_eq_none unheld]

theorem condGet_found (law : TableLaw s) {tag : U16} {c : Condition} (hc : c ∈ s.table.conditions)
    (holds : c.tag = tag.toNat) :
    ReadsOut (.condGet tag) s (conditionBytes c ++ [byte (s.table.severity.of c.kind)]) := by
  have nonzero : tag.toNat ≠ 0 := by
    have tagRange := law.range c hc
    omega
  have found : s.findCondition tag.toNat = some c := holds ▸ findCondition_of_mem law hc
  exact readsOut_of_act ready rfl <| by simp [actCondGet_of_ne_zero _ nonzero, found]

theorem condNext_zero {id tag : U16} (zero : id.toNat = 0) : TurnsAway (.condNext id tag) s .badField :=
  turnsAway_of_act ready rfl (actCondNext_of_zero _ _ zero)

theorem condNext_notFound {id tag : U16} (nonzero : id.toNat ≠ 0)
    (last : ∀ c ∈ s.table.conditions, c.span = id.toNat → c.tag ≤ tag.toNat) :
    TurnsAway (.condNext id tag) s .notFound :=
  turnsAway_of_act ready rfl <| by simp [actCondNext_of_ne_zero _ _ nonzero, conditionAfter_eq_none last]

theorem condNext_found (law : TableLaw s) {id tag : U16} (nonzero : id.toNat ≠ 0) {c : Condition}
    (hc : c ∈ s.table.conditions) (ofSpan : c.span = id.toNat) (greater : tag.toNat < c.tag)
    (least : ∀ d ∈ s.table.conditions, d.span = id.toNat → tag.toNat < d.tag → c.tag ≤ d.tag) :
    ReadsOut (.condNext id tag) s (conditionBytes c ++ [byte (s.table.severity.of c.kind)]) :=
  readsOut_of_act ready rfl <| by
    simp [actCondNext_of_ne_zero _ _ nonzero, conditionAfter_of_least law hc ofSpan greater least]

end Answers

end Sys2Proof.Machine

namespace Sys2Proof

open Machine in
/-- Settles O33, request by request: the tag that COND_GET names, then the span and the tag that COND_NEXT names. -/
theorem condReadsAnswerTheRecord : Obligations.CondReadsAnswerTheRecord := by
  unfold Obligations.CondReadsAnswerTheRecord
  intro s ready law
  refine ⟨fun tag => ⟨?getZero, ?getNotFound, ?getFound⟩, fun id tag => ⟨?nextZero, ?nextNotFound, ?nextFound⟩⟩
  case getZero => exact condGet_zero ready
  case getNotFound => exact condGet_notFound ready
  case getFound => exact fun _ => condGet_found ready law
  case nextZero => exact condNext_zero ready
  case nextNotFound => exact condNext_notFound ready
  case nextFound => exact fun nonzero _ => condNext_found ready law nonzero

end Sys2Proof
end

section
/-! PROOFS. The read period (R188): the bytes it clocks out, what it leaves of the pending response, and O7. -/

namespace Sys2Proof.Machine

/-! ### The bytes clocked out -/

section ReadBytes

variable {n : Nat} (frame : List Byte)

theorem length_readBytes (clocks : 1 ≤ n) : (readBytes n frame).length = n := by
  simp [readBytes, idleBytes]
  omega

theorem readBytes_first : (readBytes n frame)[0]? = some 0xFF := rfl

variable {frame} {k : Nat} (clocked : k + 1 < n)
include clocked

theorem readBytes_within (within : k < frame.length) : (readBytes n frame)[k + 1]? = frame[k]? := by
  have taken : k < n - 1 := by omega
  have inTaken : k < (frame.take (n - 1)).length := by
    rw [List.length_take]
    omega
  rw [readBytes, List.getElem?_cons_succ, List.getElem?_append_left inTaken, List.getElem?_take_of_lt taken]

theorem readBytes_beyond (beyond : frame.length ≤ k) : (readBytes n frame)[k + 1]? = some 0xFF := by
  have wholeTaken : frame.take (n - 1) = frame := List.take_of_length_le (by omega)
  have idle : k - frame.length < n - 1 - frame.length := by omega
  rw [readBytes, List.getElem?_cons_succ, wholeTaken, List.getElem?_append_right beyond, idleBytes,
    List.getElem?_replicate_of_lt idle]

end ReadBytes

/-! ### The link after the read -/

theorem Link.read_of_none {l : Link} (n : Nat) (nonePending : l.response = none) :
    l.read n = { l with dataOut := idleBytes n } := by
  rw [Link.read, nonePending]

/-- Only a read of the whole frame, which is one byte longer than the frame, consumes the response. -/
theorem Link.read_of_some {l : Link} {r : Response} (n : Nat) (pending : l.response = some r) :
    l.read n = { l with
      response := if r.frame.length + 1 ≤ n then none else some r
      state := if r.frame.length + 1 ≤ n then .readyIdle else .responseWaiting
      dataOut := readBytes n r.frame } := by
  by_cases whole : r.frame.length + 1 ≤ n <;> simp [Link.read, pending, whole]

/-! ### The state after the read -/

theorem link_frame (s : State) (l : Link) : KeepsBut [.link] s { s with link := l } := by
  refine ⟨fun p unnamed => ?_⟩
  cases p
  case link => exact absurd (List.mem_singleton_self _) unnamed
  all_goals rfl

theorem ready_eq_true_iff (s : State) : s.ready = true ↔ s.link.state ≠ .working := by
  simp [State.ready]

theorem exec_readPeriod {s : State} {n : Nat} (ready : s.ready = true) (clocks : 1 ≤ n) :
    exec (.readPeriod n) s = .next { s with link := s.link.read n } := by
  have called : exec (.readPeriod n) s = execReadPeriod n s := rfl
  have notLow : ¬ s.ready = false := by simp [ready]
  have notEmpty : n ≠ 0 := by omega
  rw [called, execReadPeriod, if_neg notLow, if_neg notEmpty]

end Sys2Proof.Machine

namespace Sys2Proof

open Machine in
/-- Settles O7: the read with nothing pending, then the bytes and the outcome of a read of the pending response. -/
theorem readPeriodsClockOutTheResponse : Obligations.ReadPeriodsClockOutTheResponse := by
  unfold Obligations.ReadPeriodsClockOutTheResponse
  intro n s ready clocks
  refine ⟨fun nonePending => ?nonePending, fun r pending => ?pending⟩
  case nonePending =>
    rw [exec_readPeriod ready clocks, Link.read_of_none n nonePending]
    rfl
  case pending =>
    refine ⟨_, exec_readPeriod ready clocks, link_frame .., ?_⟩
    rw [Link.read_of_some n pending]
    refine ⟨?staysHigh, length_readBytes _ clocks, readBytes_first _, fun k within clocked => ?within,
      fun k beyond clocked => ?beyond, fun whole => ?whole, fun short => ?short, rfl, rfl, rfl⟩
    case staysHigh =>
      rw [ready_eq_true_iff]
      by_cases whole : r.frame.length + 1 ≤ n <;> simp [whole]
    case within => exact readBytes_within clocked within
    case beyond => exact readBytes_beyond clocked beyond
    case whole => exact ⟨if_pos whole, if_pos whole⟩
    case short => exact ⟨if_neg (Nat.not_le.mpr short), if_neg (Nat.not_le.mpr short)⟩

end Sys2Proof
end

section
/-! PROOFS. The attention enables (R191, R192): when ATTN is asserted, what ATTENTION_SET stores and answers, and O8. -/

namespace Sys2Proof.Machine

/-! ### On/off bytes (R200) -/

theorem eq_zero_or_one_of_le {b : Byte} (onOff : b.toNat ≤ 1) : b = 0 ∨ b = 1 := by
  rw [← BitVec.toNat_inj, ← BitVec.toNat_inj]
  exact Nat.le_one_iff_eq_zero_or_eq_one.mp onOff

theorem boolOfByte_of_le {b : Byte} (onOff : b.toNat ≤ 1) : boolOfByte b = some (b == 1) := by
  rcases eq_zero_or_one_of_le onOff with rfl | rfl <;> rfl

theorem boolOfByte_of_gt {b : Byte} (above : 1 < b.toNat) : boolOfByte b = none := by
  have notOff : b.toNat ≠ 0 := by omega
  have notOn : b.toNat ≠ 1 := by omega
  rw [boolOfByte, if_neg notOff, if_neg notOn]

/-- The byte that carries an on/off value is the byte that the value was read from. -/
theorem boolByte_beq_one {b : Byte} (onOff : b.toNat ≤ 1) : boolByte (b == 1) = b := by
  rcases eq_zero_or_one_of_le onOff with rfl | rfl <;> rfl

/-! ### ATTN (R191) -/

theorem exists_letter_iff (P : Letter → Prop) : (∃ l, P l) ↔ P .A ∨ P .B := by
  refine ⟨?_, fun either => either.elim (⟨.A, ·⟩) (⟨.B, ·⟩)⟩
  rintro ⟨_ | _, holds⟩
  · exact .inl holds
  · exact .inr holds

theorem exists_unitMark_iff (s : State) :
    (∃ l : Letter, (s.channels.get l).mark = true ∨ (s.banks.get l).mark = true) ↔
      (s.channels.a.mark || s.channels.b.mark || s.banks.a.mark || s.banks.b.mark) = true := by
  simp only [exists_letter_iff, Pair.get, Bool.or_eq_true]
  tauto

theorem attn_eq_true_iff (s : State) :
    s.attn = true ↔
      (s.link.enables.span = true ∧ s.directory.any Entry.marked = true) ∨
      (s.link.enables.condition = true ∧ ∃ k ∈ s.table.conditions, k.mark = true) ∨
      (s.link.enables.unit = true ∧ ∃ l : Letter, (s.channels.get l).mark = true ∨ (s.banks.get l).mark = true) := by
  rw [exists_unitMark_iff, ← List.any_eq_true]
  simp only [State.attn, Bool.or_eq_true, Bool.and_eq_true, or_assoc]

/-! ### The act, case by case -/

/-- The enables that three on/off bytes carry. -/
def carriedEnables (a b c : Byte) : Enables := { span := a == 1, condition := b == 1, unit := c == 1 }

section OnOff

variable {a b c : Byte} (span : a.toNat ≤ 1) (condition : b.toNat ≤ 1) (unit : c.toNat ≤ 1)
include span condition unit

theorem enableBytes_carriedEnables : enableBytes (carriedEnables a b c) = [a, b, c] := by
  simp only [enableBytes, carriedEnables, boolByte_beq_one, span, condition, unit]

theorem actAttentionSet_of_onOff (s : State) :
    actAttentionSet a b c s =
      ({ s with link := { s.link with enables := carriedEnables a b c } }, { status := .ok, body := [a, b, c] }) := by
  rw [← enableBytes_carriedEnables span condition unit]
  simp [actAttentionSet, carriedEnables, boolOfByte_of_le, span, condition, unit]

end OnOff

theorem actAttentionSet_of_outside {a b c : Byte} (s : State)
    (outside : 1 < a.toNat ∨ 1 < b.toNat ∨ 1 < c.toNat) :
    actAttentionSet a b c s = (s, Reply.refusal .badField) := by
  rcases outside with above | above | above <;> simp [actAttentionSet, boolOfByte_of_gt above]

/-! ### The answers -/

section Answers

variable {a b c : Byte} {s : State} (ready : s.ready = true)
include ready

theorem attentionSet_outside (outside : 1 < a.toNat ∨ 1 < b.toNat ∨ 1 < c.toNat) :
    TurnsAway (.attentionSet a b c) s .badField :=
  turnsAway_of_act ready rfl (actAttentionSet_of_outside _ outside)

theorem attentionSet_stores (span : a.toNat ≤ 1) (condition : b.toNat ≤ 1) (unit : c.toNat ≤ 1) :
    ∃ t, exec (.attentionSet a b c) s = .next t ∧ KeepsBut [.link] s t ∧
      AnsweredWith (carriedEnables a b c) s t .ok [a, b, c] := by
  have called : exec (.attentionSet a b c) s = .next (s.exchange 6 (actAttentionSet a b c)) := rfl
  rw [exchange_of_ready ready, actAttentionSet_of_onOff span condition unit] at called
  exact ⟨_, called, keepsBut_respond (by decide) (link_frame ..),
    answeredWith_respond (r := { status := .ok, body := [a, b, c] }) rfl⟩

end Answers

end Sys2Proof.Machine

namespace Sys2Proof

open Machine in
/-- Settles O8: the enables stored, ATTN judged by them over the marks that stand, and the byte that is refused. -/
theorem attentionSetReplacesTheEnables : Obligations.AttentionSetReplacesTheEnables := by
  unfold Obligations.AttentionSetReplacesTheEnables
  intro a b c s ready
  refine ⟨fun span condition unit => ?stores, attentionSet_outside ready⟩
  obtain ⟨t, runs, frame, answer⟩ := attentionSet_stores ready span condition unit
  refine ⟨t, runs, frame, answer, ?_⟩
  have directory : t.directory = s.directory := frame.same .directory (by decide)
  have table : t.table = s.table := frame.same .table (by decide)
  have channels : t.channels = s.channels := frame.same .channels (by decide)
  have banks : t.banks = s.banks := frame.same .banks (by decide)
  rw [attn_eq_true_iff, answer.enables, directory, table, channels, banks]
  simp only [carriedEnables, beq_iff_eq]

end Sys2Proof
end

section
/-! PROOFS. The commands as one family: the act that each request carries out, the parts of the state that a command can
change, and the induction over a step that every law uses. -/

namespace Sys2Proof.Machine

/-! ### The act of a request -/

/-- What a request does while READY is high: the number of bytes that its frame clocks in, and its act; `none` for a command
that is no request. -/
def requestAct : Instr → Option (Nat × (State → State × Reply))
  | .spanPut b => some (28, actSpanPut b)
  | .spanGet id => some (5, actSpanGet id)
  | .spanByPort bank position => some (5, actSpanByPort bank position)
  | .spanNext id => some (5, actSpanNext id)
  | .spanHold id => some (5, actSpanHold id)
  | .spanResume id => some (5, actSpanResume id)
  | .spanRetire id => some (5, actSpanRetire id)
  | .spanLearn id => some (5, actSpanLearn id)
  | .marksAppend body => some (3 + body.length, actMarksAppend body)
  | .marksRead id start => some (6, actMarksRead id start)
  | .marksClear id => some (5, actMarksClear id)
  | .testNow id => some (5, actTestNow id)
  | .testCancel id => some (5, actTestCancel id)
  | .condGet tag => some (5, actCondGet tag)
  | .condNext id tag => some (7, actCondNext id tag)
  | .condAck tag => some (5, actCondAck tag)
  | .condRetire tag => some (5, actCondRetire tag)
  | .severitySet b => some (8, actSeveritySet b)
  | .profileSet b => some (14, actProfileSet b)
  | .profileGet number => some (4, actProfileGet number)
  | .clockSet t => some (7, actClockSet t)
  | .windowSet o c => some (11, actWindowSet o c)
  | .classSet cls weight preemptible => some (6, actClassSet cls weight preemptible)
  | .guardSet overload live => some (7, actGuardSet overload live)
  | .coilSet bank length groupIndex => some (10, actCoilSet bank length groupIndex)
  | .bankRestore bank sense => some (4, actBankRestore bank sense)
  | .statusGet => some (3, actStatusGet)
  | .changesRead => some (3, actChangesRead)
  | .attentionSet span condition unit => some (6, actAttentionSet span condition unit)
  | .restart => some (3, actRestart)
  | _ => none

theorem exec_of_requestAct {i : Instr} {n : Nat} {act : State → State × Reply} (h : requestAct i = some (n, act))
    (s : State) : exec i s = .next (s.exchange n act) := by
  cases i <;> cases h <;> rfl

theorem isSome_requestAct (i : Instr) : (requestAct i).isSome = (requestBody i).isSome := by
  cases i <;> rfl

/-! ### The parts that a command can change -/

/-- The parts of the state that the act of a request can change. -/
def requestParts : Instr → List Part
  | .spanPut _ => [.directory, .sched]
  | .spanHold _ => [.directory, .sched]
  | .spanResume _ => [.directory]
  | .spanRetire _ => [.directory, .table, .buffers, .sched, .banks, .channels, .engine]
  | .spanLearn _ => [.directory, .sched]
  | .marksAppend _ => [.directory]
  | .marksClear _ => [.directory]
  | .testNow _ => [.sched]
  | .testCancel _ => [.directory, .buffers, .sched, .banks, .channels, .engine]
  | .condAck _ => [.table]
  | .condRetire _ => [.table]
  | .severitySet _ => [.table]
  | .profileSet _ => [.profiles]
  | .clockSet _ => [.timeBase, .directory, .buffers, .sched, .banks, .channels, .engine, .draws, .now]
  | .windowSet _ _ => [.timeBase, .directory, .buffers, .sched, .banks, .channels, .engine, .draws, .now]
  | .classSet _ _ _ => [.sched]
  | .guardSet _ _ => [.thresholds]
  | .coilSet _ _ _ => [.banks, .sched]
  | .bankRestore _ _ => [.buffers, .sched, .banks, .channels, .directory]
  | .changesRead => [.directory, .table, .channels, .banks]
  | .attentionSet _ _ _ => [.link]
  | .restart => [.directory, .sched, .banks, .channels, .buffers, .engine, .table]
  | _ => []

/-- The parts of the state that an event inside the part can change. A reset is told apart from the events: it leaves
nothing but the waiting commands and the draws. -/
def eventParts : Instr → List Part
  | .inhibitAsserted => [.inputs, .directory, .buffers, .sched, .banks, .channels, .draws]
  | .inhibitReleased => [.inputs, .channels, .sched]
  | .timeAdvance => [.timeBase, .directory, .buffers, .sched, .banks, .channels, .engine, .draws, .now]
  | .settleCompletion _ _ => [.now, .buffers, .sched, .banks, .channels, .directory]
  | .guardCompletion _ _ => [.now, .directory, .buffers, .sched, .banks, .channels]
  | .shotAccumulated _ _ => [.now, .channels]
  | .acquisitionCompletion _ => [.now, .buffers, .channels, .banks, .sched, .engine]
  | .dispatchPass _ _ => [.buffers, .sched, .banks, .channels, .directory, .now]
  | .analysisTake => [.engine]
  | .analysisCompletion => [.now, .directory, .table, .channels, .buffers, .sched, .engine]
  | .frameRefused _ => [.link]
  | .readPeriod _ => [.link]
  | .ignoredPeriod _ => [.link]
  | _ => []

/-- No part is in both lists. -/
def Part.apart (l m : List Part) : Bool := m.all (fun p => !l.contains p)

/-- The predicate reads these parts of a state and no others. -/
def Reads (l : List Part) (P : State → Prop) : Prop := ∀ s t : State, (∀ p ∈ l, p.Same s t) → P s → P t

theorem Reads.of_frame {l m : List Part} {P : State → Prop} (reads : Reads l P) {s t : State} (frame : KeepsBut m s t)
    (apart : Part.apart m l = true) (h : P s) : P t := by
  refine reads s t (fun p hp => frame.same p (fun hm => ?_)) h
  have unshared := List.all_eq_true.mp apart p hp
  simp [hm] at unshared

/-- A record update that is true to the named parts: the frame of an update written out. -/
theorem keepsBut_of_all {l : List Part} {s t : State} (h : ∀ p : Part, p ∈ l ∨ p.Same s t) : KeepsBut l s t :=
  ⟨fun p hp => (h p).resolve_left hp⟩

/-! ### The frames of the acts -/

theorem becomeEmpty_removeJob_frame (s : State) (id : Nat) (place : JobPlace) :
    KeepsBut [.directory, .table, .buffers, .sched, .banks, .channels, .engine] s ((s.removeJob id place).becomeEmpty id) :=
  ((removeJob_frame s id place).mono (by decide)).trans ((becomeEmpty_frame _ id).mono (by decide))

theorem writeCancelled_frame (s : State) (id : Nat) (learn : Bool) : KeepsBut [.directory] s (s.writeCancelled id learn) := by
  have written : KeepsBut [.directory] s (s.writeOutcome id .cancelled none) := modifySpan_frame ..
  unfold State.writeCancelled
  dsimp only
  split
  · exact written.trans (modifySpan_frame ..)
  · exact written

theorem markCancelled_frame (s : State) (a : Analysis) : KeepsBut [.engine] s (s.markCancelled a) :=
  keepsBut_of_all (fun p => by cases p <;> first | (left; simp; done) | exact .inr rfl)

theorem cancelJob_frame (s : State) (id : Nat) (place : JobPlace) :
    KeepsBut [.directory, .buffers, .sched, .banks, .channels, .engine] s (cancelJob s id place) := by
  have removed (p : JobPlace) (learn : Bool) :
      KeepsBut [.directory, .buffers, .sched, .banks, .channels, .engine] s ((s.removeJob id p).writeCancelled id learn) :=
    ((removeJob_frame s id p).mono (by decide)).trans ((writeCancelled_frame ..).mono (by decide))
  cases place with
  | classQueue c => unfold cancelJob; exact removed ..
  | demandQueue learn => unfold cancelJob; exact removed ..
  | channel ch f => unfold cancelJob; exact removed ..
  | waiting f => unfold cancelJob; exact removed ..
  | analysing a =>
    unfold cancelJob
    dsimp only
    split
    · exact .refl ..
    · exact ((markCancelled_frame ..).mono (by decide)).trans ((writeCancelled_frame ..).mono (by decide))

theorem restoreBank_frame (s : State) (l : Letter) (sense : Option Nat) :
    KeepsBut [.buffers, .sched, .banks, .channels, .directory] s (s.restoreBank l sense) := by
  unfold State.restoreBank
  dsimp only
  split
  · exact (((setBank_frame ..).mono (by decide)).trans (settle_frame ..)).trans ((callDispatch_frame _).mono (by decide))
  · exact ((setBank_frame ..).mono (by decide)).trans ((callDispatch_frame _).mono (by decide))

theorem withClock_frame (s : State) (t : Nat) :
    KeepsBut [.timeBase, .directory, .buffers, .sched, .banks, .channels, .engine, .draws, .now] s (s.withClock t) := by
  refine KeepsBut.trans ?set (retestWindow_frame _ [])
  case set => exact keepsBut_of_all (fun p => by cases p <;> first | (left; simp; done) | exact .inr rfl)

theorem withWindow_frame (s : State) (o c : Nat) :
    KeepsBut [.timeBase, .directory, .buffers, .sched, .banks, .channels, .engine, .draws, .now] s (s.withWindow o c) := by
  refine KeepsBut.trans ?set (retestWindow_frame _ [])
  case set => exact keepsBut_of_all (fun p => by cases p <;> first | (left; simp; done) | exact .inr rfl)

theorem actSpanPut_frame (b : SpanFields) (s : State) : KeepsBut [.directory, .sched] s (actSpanPut b s).1 := by
  unfold actSpanPut
  split
  · exact .refl ..
  split
  · exact .refl ..
  split
  · unfold editSpan
    split
    · exact .refl ..
    dsimp only
    split
    · exact ((modifySpan_frame ..).mono (by decide)).trans ((callDispatch_frame _).mono (by decide))
    · exact (modifySpan_frame ..).mono (by decide)
  · unfold createSpan
    split
    · exact .refl ..
    · exact keepsBut_of_all (fun p => by cases p <;> first | (left; simp; done) | exact .inr rfl)

theorem actSpanHold_frame (id : U16) (s : State) : KeepsBut [.directory, .sched] s (actSpanHold id s).1 := by
  unfold actSpanHold
  split
  · exact .refl ..
  split
  · exact keepsBut_of_all (fun p => by cases p <;> first | (left; simp; done) | exact .inr rfl)
  · exact .refl ..

theorem actSpanResume_frame (id : U16) (s : State) : KeepsBut [.directory] s (actSpanResume id s).1 := by
  unfold actSpanResume
  split
  · exact .refl ..
  split
  · exact modifySpan_frame ..
  · exact .refl ..

theorem retireSpan_frame (s : State) (id : Nat) :
    KeepsBut [.directory, .table, .buffers, .sched, .banks, .channels, .engine] s (retireSpan s id).1 := by
  unfold retireSpan
  split
  · exact (modifySpan_frame ..).mono (by decide)
  · exact becomeEmpty_removeJob_frame ..
  · exact (becomeEmpty_frame ..).mono (by decide)

theorem actSpanRetire_frame (id : U16) (s : State) :
    KeepsBut [.directory, .table, .buffers, .sched, .banks, .channels, .engine] s (actSpanRetire id s).1 := by
  unfold actSpanRetire
  split
  · exact .refl ..
  split
  · exact .refl ..
  · exact retireSpan_frame ..

theorem actSpanLearn_frame (id : U16) (s : State) : KeepsBut [.directory, .sched] s (actSpanLearn id s).1 := by
  unfold actSpanLearn
  split
  · exact .refl ..
  split
  · exact .refl ..
  · exact keepsBut_of_all (fun p => by cases p <;> first | (left; simp; done) | exact .inr rfl)

theorem actMarksAppend_frame (body : List Byte) (s : State) : KeepsBut [.directory] s (actMarksAppend body s).1 := by
  have appended (r : SpanRecord) (marks : List Landmark) : KeepsBut [.directory] s (appendMarks s r marks).1 := by
    unfold appendMarks
    split
    · exact .refl ..
    · exact modifySpan_frame ..
  unfold actMarksAppend
  split
  · unfold actMarks
    repeat' split
    all_goals first | exact .refl .. | exact appended ..
  · exact .refl ..

theorem actMarksClear_frame (id : U16) (s : State) : KeepsBut [.directory] s (actMarksClear id s).1 := by
  unfold actMarksClear
  repeat' split
  all_goals first | exact .refl .. | exact modifySpan_frame ..

theorem actTestNow_frame (id : U16) (s : State) : KeepsBut [.sched] s (actTestNow id s).1 := by
  unfold actTestNow
  repeat' split
  all_goals
    exact keepsBut_of_all (fun p => by cases p <;> first | (left; simp; done) | exact .inr rfl)

theorem actTestCancel_frame (id : U16) (s : State) :
    KeepsBut [.directory, .buffers, .sched, .banks, .channels, .engine] s (actTestCancel id s).1 := by
  unfold actTestCancel
  repeat' split
  all_goals first | exact .refl .. | exact cancelJob_frame ..

theorem actCondAck_frame (tag : U16) (s : State) : KeepsBut [.table] s (actCondAck tag s).1 := by
  unfold actCondAck
  repeat' split
  all_goals
    exact keepsBut_of_all (fun p => by cases p <;> first | (left; simp; done) | exact .inr rfl)

theorem actCondRetire_frame (tag : U16) (s : State) : KeepsBut [.table] s (actCondRetire tag s).1 := by
  unfold actCondRetire
  repeat' split
  all_goals
    exact keepsBut_of_all (fun p => by cases p <;> first | (left; simp; done) | exact .inr rfl)

theorem actProfileSet_frame (b : ProfileFields) (s : State) : KeepsBut [.profiles] s (actProfileSet b s).1 := by
  unfold actProfileSet
  repeat' split
  all_goals first | exact .refl .. | exact profiles_frame ..

theorem actProfileGet_frame (number : Byte) (s : State) : KeepsBut [] s (actProfileGet number s).1 := by
  unfold actProfileGet
  split <;> exact .refl ..

theorem actSpanByPort_frame (bank position : Byte) (s : State) : KeepsBut [] s (actSpanByPort bank position s).1 := by
  unfold actSpanByPort
  repeat' split
  all_goals exact .refl ..

theorem actMarksRead_frame (id : U16) (start : Byte) (s : State) : KeepsBut [] s (actMarksRead id start s).1 := by
  unfold actMarksRead
  repeat' split
  all_goals exact .refl ..

theorem actClockSet_frame (t : U32) (s : State) :
    KeepsBut [.timeBase, .directory, .buffers, .sched, .banks, .channels, .engine, .draws, .now] s (actClockSet t s).1 := by
  unfold actClockSet
  split
  · exact .refl ..
  · exact withClock_frame ..

theorem actWindowSet_frame (o c : U32) (s : State) :
    KeepsBut [.timeBase, .directory, .buffers, .sched, .banks, .channels, .engine, .draws, .now] s
      (actWindowSet o c s).1 := by
  unfold actWindowSet
  split
  · exact .refl ..
  · exact withWindow_frame ..

theorem actClassSet_frame (cls weight preemptible : Byte) (s : State) :
    KeepsBut [.sched] s (actClassSet cls weight preemptible s).1 := by
  unfold actClassSet
  split
  · exact keepsBut_of_all (fun p => by cases p <;> first | (left; simp; done) | exact .inr rfl)
  · exact .refl ..

theorem actCoilSet_frame (bank : Byte) (length : U32) (groupIndex : U16) (s : State) :
    KeepsBut [.banks, .sched] s (actCoilSet bank length groupIndex s).1 := by
  unfold actCoilSet
  repeat' split
  all_goals first | exact .refl .. | exact storeCoil_frame ..

theorem actBankRestore_frame (bank : Byte) (sense : Sense) (s : State) :
    KeepsBut [.buffers, .sched, .banks, .channels, .directory] s (actBankRestore bank sense s).1 := by
  unfold actBankRestore
  repeat' split
  all_goals first | exact .refl .. | exact restoreBank_frame ..

theorem actAttentionSet_frame (span condition unit : Byte) (s : State) :
    KeepsBut [.link] s (actAttentionSet span condition unit s).1 := by
  unfold actAttentionSet
  split
  · exact link_frame ..
  · exact .refl ..

theorem actSeveritySet_frame (b : SeverityFields) (s : State) : KeepsBut [.table] s (actSeveritySet b s).1 :=
  keepsBut_of_all (fun p => by cases p <;> first | (left; simp; done) | exact .inr rfl)

theorem thresholds_frame (s : State) (t : Thresholds) : KeepsBut [.thresholds] s { s with thresholds := t } :=
  keepsBut_of_all (fun p => by cases p <;> first | (left; simp; done) | exact .inr rfl)

theorem returnItems_frame (s : State) (items : List Item) :
    KeepsBut [.directory, .table, .channels, .banks] s (s.returnItems items) :=
  keepsBut_of_all (fun p => by cases p <;> first | (left; simp; done) | exact .inr rfl)

theorem restarted_frame (s : State) :
    KeepsBut [.directory, .sched, .banks, .channels, .buffers, .engine, .table] s s.restarted :=
  keepsBut_of_all (fun p => by cases p <;> first | (left; simp; done) | exact .inr rfl)

/-- What the act of a request can change (chapters 1 to 10). -/
theorem act_frame {i : Instr} {n : Nat} {act : State → State × Reply} (h : requestAct i = some (n, act)) (s : State) :
    KeepsBut (requestParts i) s (act s).1 := by
  cases i <;> cases h
  case spanPut => exact actSpanPut_frame ..
  case spanByPort => exact actSpanByPort_frame ..
  case spanHold => exact actSpanHold_frame ..
  case spanResume => exact actSpanResume_frame ..
  case spanRetire => exact actSpanRetire_frame ..
  case spanLearn => exact actSpanLearn_frame ..
  case marksAppend => exact actMarksAppend_frame ..
  case marksRead => exact actMarksRead_frame ..
  case marksClear => exact actMarksClear_frame ..
  case testNow => exact actTestNow_frame ..
  case testCancel => exact actTestCancel_frame ..
  case condAck => exact actCondAck_frame ..
  case condRetire => exact actCondRetire_frame ..
  case profileSet => exact actProfileSet_frame ..
  case profileGet => exact actProfileGet_frame ..
  case clockSet => exact actClockSet_frame ..
  case windowSet => exact actWindowSet_frame ..
  case classSet => exact actClassSet_frame ..
  case coilSet => exact actCoilSet_frame ..
  case bankRestore => exact actBankRestore_frame ..
  case attentionSet => exact actAttentionSet_frame ..
  case spanGet | spanNext | condGet | condNext | statusGet => exact .refl ..
  case severitySet => exact actSeveritySet_frame ..
  case guardSet => exact thresholds_frame ..
  case changesRead => exact returnItems_frame ..
  case restart => exact restarted_frame ..

/-! ### The frames of the events -/

theorem liveFound_frame (s : State) (w : Work) : KeepsBut [.directory] s (s.liveFound w) := by
  cases w with
  | test kind span revision => exact modifySpan_frame ..
  | verify channel coil => exact .refl ..

theorem liveGone_frame (s : State) (w : Work) : KeepsBut [.directory] s (s.liveGone w) := by
  cases w with
  | test kind span revision => exact modifySpan_frame ..
  | verify channel coil => exact .refl ..

theorem guardDone_frame (s : State) (ch : Letter) (f : Flight) (level : Nat) :
    KeepsBut [.directory, .buffers, .sched, .banks, .channels] s (s.guardDone ch f level) := by
  have starts (t : State) (g : Flight) :
      KeepsBut [.directory, .buffers, .sched, .banks, .channels] t (t.startFiring ch g) :=
    (setChannel_frame ..).mono (by decide)
  unfold State.guardDone
  split
  · exact ((endWithOutcome_frame ..).mono (by decide)).trans ((dropFlight_frame ..).mono (by decide))
  split
  · unfold State.guardLive
    have found : KeepsBut [.directory, .buffers, .sched, .banks, .channels] s (s.liveFound f.work) :=
      (liveFound_frame ..).mono (by decide)
    dsimp only
    split
    · exact (found.trans ((free1310_frame ..).mono (by decide))).trans (starts ..)
    · exact found.trans (starts ..)
  · exact ((liveGone_frame ..).mono (by decide)).trans (starts ..)

theorem firstDone_frame (s : State) (ch : Letter) (f : Flight) :
    KeepsBut [.buffers, .channels, .banks, .sched, .engine] s (s.firstDone ch f) := by
  unfold State.firstDone
  dsimp only
  split
  · exact ((fillBuffer_frame ..).mono (by decide)).trans ((setChannel_frame ..).mono (by decide))
  · exact ((fillBuffer_frame ..).mono (by decide)).trans ((handOn_frame ..).mono (by decide))

theorem secondDone_frame (s : State) (ch : Letter) (f : Flight) :
    KeepsBut [.buffers, .channels, .banks, .sched, .engine] s (s.secondDone ch f) :=
  ((fillBuffer_frame ..).mono (by decide)).trans ((handOn_frame ..).mono (by decide))

theorem exchange_refusal_frame (s : State) (n : Nat) (r : Reply) :
    KeepsBut [.link] s (s.exchange n (fun t => (t, r))) := by
  unfold State.exchange
  split
  · exact keepsBut_respond (by decide) (.refl ..)
  · exact ignorePeriod_frame ..

section Events

variable {s t : State}

theorem exec_frameRefused_frame {frame : List Byte} (h : exec (.frameRefused frame) s = .next t) : KeepsBut [.link] s t := by
  change execFrameRefused frame s = .next t at h
  unfold execFrameRefused at h
  split at h
  · cases h
    exact .refl ..
  split at h <;> cases h
  · exact exchange_refusal_frame ..
  · exact .refl ..

theorem exec_readPeriod_frame {n : Nat} (h : exec (.readPeriod n) s = .next t) : KeepsBut [.link] s t := by
  change execReadPeriod n s = .next t at h
  unfold execReadPeriod at h
  split at h
  · cases h
    exact ignorePeriod_frame ..
  split at h <;> cases h
  · exact .refl ..
  · exact link_frame ..

theorem exec_inhibitAsserted_frame (h : exec .inhibitAsserted s = .next t) :
    KeepsBut [.inputs, .directory, .buffers, .sched, .banks, .channels, .draws] s t := by
  have asserted : KeepsBut [.inputs, .directory, .buffers, .sched, .banks, .channels, .draws] s
      { s with inputs := { s.inputs with inhibit := true } } :=
    keepsBut_of_all (fun p => by cases p <;> first | (left; simp; done) | exact .inr rfl)
  have stops (u : State) (ch : Letter) :
      KeepsBut [.inputs, .directory, .buffers, .sched, .banks, .channels, .draws] u (u.inhibitChannel ch) :=
    (inhibitChannel_frame u ch).mono (by decide)
  change execInhibitAsserted s = .next t at h
  unfold execInhibitAsserted at h
  dsimp only at h
  split at h <;> cases h
  · exact asserted.trans (eitherOrder_frame _ _ (by decide) stops)
  · exact asserted.trans ((stops ..).trans (stops ..))

theorem exec_inhibitReleased_frame (h : exec .inhibitReleased s = .next t) :
    KeepsBut [.inputs, .channels, .sched] s t := by
  change execInhibitReleased s = .next t at h
  unfold execInhibitReleased at h
  split at h <;> cases h
  · exact keepsBut_of_all (fun p => by cases p <;> first | (left; simp; done) | exact .inr rfl)
  · exact .refl ..

theorem exec_timeAdvance_frame (h : exec .timeAdvance s = .next t) :
    KeepsBut [.timeBase, .directory, .buffers, .sched, .banks, .channels, .engine, .draws, .now] s t := by
  cases h
  refine KeepsBut.trans ?advanced (retestWindow_frame _ _)
  exact keepsBut_of_all (fun p => by cases p <;> first | (left; simp; done) | exact .inr rfl)

theorem exec_settleCompletion_frame {l : Letter} {sense : Sense} (h : exec (.settleCompletion l sense) s = .next t) :
    KeepsBut [.now, .buffers, .sched, .banks, .channels, .directory] s t := by
  change execSettleCompletion l sense s = .next t at h
  unfold execSettleCompletion at h
  split at h <;> cases h
  · exact ((reach_frame ..).mono (by decide)).trans ((settle_frame ..).mono (by decide))
  · exact .refl ..

theorem exec_guardCompletion_frame {ch : Letter} {sum : Nat} (h : exec (.guardCompletion ch sum) s = .next t) :
    KeepsBut [.now, .directory, .buffers, .sched, .banks, .channels] s t := by
  change execGuardCompletion ch sum s = .next t at h
  unfold execGuardCompletion at h
  split at h <;> cases h
  · exact ((reach_frame ..).mono (by decide)).trans ((guardDone_frame ..).mono (by decide))
  all_goals exact .refl ..

theorem exec_shotAccumulated_frame {ch : Letter} {samples : List U16}
    (h : exec (.shotAccumulated ch samples) s = .next t) : KeepsBut [.now, .channels] s t := by
  change execShotAccumulated ch samples s = .next t at h
  unfold execShotAccumulated at h
  repeat' split at h
  all_goals cases h
  · exact ((reach_frame ..).mono (by decide)).trans ((setChannel_frame ..).mono (by decide))
  all_goals exact .refl ..

theorem exec_acquisitionCompletion_frame {ch : Letter} (h : exec (.acquisitionCompletion ch) s = .next t) :
    KeepsBut [.now, .buffers, .channels, .banks, .sched, .engine] s t := by
  have clock (due : Nat) : KeepsBut [.now, .buffers, .channels, .banks, .sched, .engine] s (s.reach due) :=
    (reach_frame ..).mono (by decide)
  change execAcquisitionCompletion ch s = .next t at h
  unfold execAcquisitionCompletion at h
  repeat' split at h
  all_goals cases h
  · exact (clock _).trans ((firstDone_frame ..).mono (by decide))
  · exact .refl ..
  · exact (clock _).trans ((secondDone_frame ..).mono (by decide))
  all_goals exact .refl ..

theorem exec_analysisCompletion_frame (h : exec .analysisCompletion s = .next t) :
    KeepsBut [.now, .directory, .table, .channels, .buffers, .sched, .engine] s t := by
  change execAnalysisCompletion s = .next t at h
  unfold execAnalysisCompletion at h
  split at h <;> cases h
  · exact .refl ..
  · exact (((reach_frame ..).mono (by decide)).trans ((dispose_frame ..).mono (by decide))).trans
      ((endAnalysis_frame ..).mono (by decide))

/-- What an event inside the part can change; the two resets and the requests are told apart from the events. -/
theorem exec_event_frame {i : Instr} (none : requestAct i = none) (notReset : ∀ straps inhibit,
    i ≠ .powerOn straps inhibit ∧ i ≠ .resetPin straps inhibit) (h : exec i s = .next t) :
    KeepsBut (eventParts i) s t := by
  cases i
  case frameRefused => exact exec_frameRefused_frame h
  case readPeriod => exact exec_readPeriod_frame h
  case ignoredPeriod =>
    cases h
    exact ignorePeriod_frame ..
  case powerOn straps inhibit => exact absurd rfl (notReset straps inhibit).1
  case resetPin straps inhibit => exact absurd rfl (notReset straps inhibit).2
  case inhibitAsserted => exact exec_inhibitAsserted_frame h
  case inhibitReleased => exact exec_inhibitReleased_frame h
  case timeAdvance => exact exec_timeAdvance_frame h
  case settleCompletion => exact exec_settleCompletion_frame h
  case guardCompletion => exact exec_guardCompletion_frame h
  case shotAccumulated => exact exec_shotAccumulated_frame h
  case acquisitionCompletion => exact exec_acquisitionCompletion_frame h
  case dispatchPass =>
    cases h
    exact dispatchPass_frame ..
  case analysisTake =>
    cases h
    exact takeHead_frame ..
  case analysisCompletion => exact exec_analysisCompletion_frame h
  all_goals cases none

end Events

/-! ### The induction over a step

A law reads some parts of the state, never the link, the clock, the draws or the waiting commands. It is kept by every step
if the reset values have it, and every act and every event that can change one of its parts keeps it. -/

theorem step_cases {s t : State} (h : step s = .next t) :
    (∃ i rest, s.pending = i :: rest ∧ exec i (s.withPending rest) = .next t) ∨ (s.pending = [] ∧ t = s.tick) := by
  unfold step at h
  split at h
  next i rest waiting => exact .inl ⟨i, rest, waiting, h⟩
  next waiting =>
    cases h
    exact .inr ⟨waiting, rfl⟩

/-- An exchange keeps what its act keeps, for predicates that do not read the link; the act may rely on `Q`. -/
theorem exchange_keeps {l m : List Part} {P Q : State → Prop} (reads : Reads l P) (free : .link ∉ l) (relies : Reads m Q)
    (freeQ : .link ∉ m) {s : State} {n : Nat} {act : State → State × Reply} (kept : ∀ u, Q u → P u → P (act u).1)
    (hQ : Q s) (h : P s) : P (s.exchange n act) := by
  have linkOnly {k : List Part} {R : State → Prop} (readsR : Reads k R) (freeR : .link ∉ k) {u v : State}
      (frame : KeepsBut [.link] u v) (hu : R u) : R v :=
    readsR u v (fun p hp => frame.same p (by rintro (_ | ⟨_, ⟨⟩⟩); exact freeR hp)) hu
  unfold State.exchange
  split
  · have discarded := discardPending_frame s
    exact linkOnly reads free (link_frame ..)
      (kept _ (linkOnly relies freeQ discarded hQ) (linkOnly reads free discarded h))
  · exact linkOnly reads free (ignorePeriod_frame ..) h

/-- The predicate holds after every reset, whatever the straps and the INHIBIT level are. -/
def HoldsAtReset (P : State → Prop) : Prop := ∀ (s : State) (straps : Straps) (inhibit : Bool), P (s.resetTo straps inhibit)

/-- No part that the link, the clock, the draws and the waiting commands make up. -/
def spareParts : List Part := [.link, .now, .draws, .pending]

theorem exec_keeps {l m : List Part} {P Q : State → Prop} (reads : Reads l P) (free : Part.apart spareParts l)
    (relies : Reads m Q) (freeQ : Part.apart spareParts m) (reset : HoldsAtReset P)
    (requests : ∀ i n act s, requestAct i = some (n, act) → Q s → P s → P (act s).1)
    (events : ∀ i s t, Part.apart (eventParts i) l = false → exec i s = .next t → Q s → P s → P t)
    {i : Instr} {s t : State} (hQ : Q s) (h : P s) (ran : exec i s = .next t) : P t := by
  match kind : requestAct i with
  | some (n, act) =>
    rw [exec_of_requestAct kind] at ran
    cases ran
    refine exchange_keeps reads (fun hl => ?_) relies (fun hm => ?_) (fun u => requests i n act u kind) hQ h
    · simpa [spareParts] using List.all_eq_true.mp free _ hl
    · simpa [spareParts] using List.all_eq_true.mp freeQ _ hm
  | none =>
    by_cases resets : ∃ straps inhibit, i = .powerOn straps inhibit ∨ i = .resetPin straps inhibit
    · obtain ⟨straps, inhibit, rfl | rfl⟩ := resets <;> cases ran <;> exact reset s straps inhibit
    · simp only [not_exists, not_or] at resets
      cases apart : Part.apart (eventParts i) l with
      | true => exact reads.of_frame (exec_event_frame kind resets ran) apart h
      | false => exact events i s t apart ran hQ h

/-- A law over a step, where what keeps it may rely on another law of the state before the step. -/
theorem step_keeps_relying {l m : List Part} {P Q : State → Prop} (reads : Reads l P) (free : Part.apart spareParts l)
    (relies : Reads m Q) (freeQ : Part.apart spareParts m) (reset : HoldsAtReset P)
    (requests : ∀ i n act s, requestAct i = some (n, act) → Q s → P s → P (act s).1)
    (events : ∀ i s t, Part.apart (eventParts i) l = false → exec i s = .next t → Q s → P s → P t)
    {s t : State} (hQ : Q s) (h : P s) (ran : step s = .next t) : P t := by
  rcases step_cases ran with ⟨i, rest, -, ran⟩ | ⟨-, rfl⟩
  · have frame : KeepsBut spareParts s (s.withPending rest) :=
      keepsBut_of_all (fun p => by cases p <;> first | (left; simp [spareParts]; done) | exact .inr rfl)
    exact exec_keeps reads free relies freeQ reset requests events (relies.of_frame frame freeQ hQ)
      (reads.of_frame frame free h) ran
  · refine reads.of_frame ?_ free h
    exact keepsBut_of_all (fun p => by cases p <;> first | (left; simp [spareParts]; done) | exact .inr rfl)

theorem step_keeps {l : List Part} {P : State → Prop} (reads : Reads l P) (free : Part.apart spareParts l)
    (reset : HoldsAtReset P)
    (requests : ∀ i n act s, requestAct i = some (n, act) → P s → P (act s).1)
    (events : ∀ i s t, Part.apart (eventParts i) l = false → exec i s = .next t → P s → P t)
    {s t : State} (h : P s) (ran : step s = .next t) : P t :=
  step_keeps_relying (m := []) (Q := fun _ => True) reads free (fun _ _ _ _ => trivial) rfl reset
    (fun i n act u kind _ => requests i n act u kind) (fun i u v touches ran _ => events i u v touches ran) trivial h ran

end Sys2Proof.Machine
end

section
/-! PROOFS. What the shared operations leave standing of the directory, the coils and the class settings, and the induction
over a dispatch pass and over a window event. -/

namespace Sys2Proof.Machine

/-! ### What a predicate must be kept by, for a pass or a window event to keep it -/

theorem eitherOrder_keeps {P : State → Prop} {f : State → Letter → State} (draw : ∀ u, P u → P u.drawn)
    (one : ∀ u ch, P u → P (f u ch)) {s : State} (h : P s) : P (s.eitherOrder f) := by
  unfold State.eitherOrder
  split <;> exact one _ _ (one _ _ (draw _ h))

/-- A channel considered keeps what the dispatch of the chosen job to an idle channel keeps. -/
theorem considerChannel_keeps {P : State → Prop} {senses : Pair (Option Nat)} {ch : Letter}
    (taken : ∀ u j, (u.channels.get ch).activity = .idle → (u.choose ch).job = some j → P u →
      P (({ u with sched := (u.choose ch).sched } : State).dispatch ch j senses)) {s : State} (h : P s) :
    P (s.considerChannel senses ch) := by
  unfold State.considerChannel
  dsimp only
  split
  next idle =>
    split
    next j chosen => exact taken s j ((isIdle_iff _).mp idle) chosen h
    next => exact h
  next => exact h

theorem preempt_keeps {P : State → Prop} {senses : Pair (Option Nat)}
    (one : ∀ u demand, u.timeBase.windowOpen = true → P u → P (State.preemptFor senses u demand)) {s : State} (h : P s) :
    P (s.preempt senses) := by
  have fold (l : List Nat) : ∀ u : State, u.timeBase.windowOpen = true → P u → P (l.foldl (State.preemptFor senses) u) := by
    induction l with
    | nil => exact fun _ _ hu => hu
    | cons demand rest ih =>
      intro u windowOpen hu
      have same : (State.preemptFor senses u demand).timeBase = u.timeBase :=
        (preemptFor_frame senses u demand).same .timeBase (by decide)
      exact ih _ (by rw [same, windowOpen]) (one u demand windowOpen hu)
  unfold State.preempt
  split
  next windowOpen => exact fold _ s windowOpen h
  next => exact h

/-- A pass keeps what its two channels, its pre-emptions, the call that it answers and its nanosecond keep. -/
theorem dispatchPass_keeps {P : State → Prop} {senses : Pair (Option Nat)}
    (answered : ∀ u : State, P u → P { u with sched := { u.sched with dispatchCalled := false } })
    (clock : ∀ (u : State) (n : Nat), P u → P { u with now := n })
    (consider : ∀ u ch, P u → P (u.considerChannel senses ch))
    (one : ∀ u demand, u.timeBase.windowOpen = true → P u → P (State.preemptFor senses u demand)) {s : State} (h : P s) :
    P (s.dispatchPass senses) :=
  clock _ _ (preempt_keeps one (consider _ _ (consider _ _ (answered _ h))))

/-- A test of the window keeps what a window open and a window close keep. -/
theorem retestWindow_keeps {P : State → Prop} {s : State} {held : List Nat}
    (opens : s.timeBase.windowOpen = false → P (s.openWindow held))
    (closes : s.timeBase.windowOpen = true → P s.closeWindow) (h : P s) : P (s.retestWindow held) := by
  unfold State.retestWindow
  dsimp only
  split
  next inside =>
    refine opens ?_
    simp only [Bool.and_eq_true, Bool.not_eq_true'] at inside
    exact inside.2
  split
  next outside =>
    refine closes ?_
    simp only [Bool.and_eq_true] at outside
    exact outside.2
  next => exact h

theorem closeAtChannels_keeps {P : State → Prop} (draw : ∀ u, P u → P u.drawn)
    (one : ∀ u ch, P u → P (State.closeAtChannel u ch)) {s : State} (h : P s) : P s.closeAtChannels := by
  unfold State.closeAtChannels
  split
  · exact eitherOrder_keeps draw one h
  · exact one _ _ (one _ _ h)

/-! ### The core of the directory

Most commands write only the states, the outcomes, the flags, the revisions and the marks of spans. What they leave of every
entry is its core. -/

/-- The record without its states, revision, outcome, flags and mark. -/
def SpanRecord.core (r : SpanRecord) : SpanRecord :=
  { r with
    state := .draft, resume := .draft, revision := 0, lastOutcome := .none_, lastWindow := 0, lastEnd := none
    missed := false, live := false, overflow := false, dropped := 0, mark := false }

/-- The entry with the core of its record. -/
def Entry.core : Entry → Entry
  | .span r => .span r.core
  | .vacated i => .vacated i

/-- The cores of the directory's entries, in its order. -/
def State.core (s : State) : List Entry := s.directory.map Entry.core

@[simp] theorem SpanRecord.core_id (r : SpanRecord) : r.core.id = r.id := rfl
@[simp] theorem SpanRecord.core_bank (r : SpanRecord) : r.core.bank = r.bank := rfl
@[simp] theorem SpanRecord.core_position (r : SpanRecord) : r.core.position = r.position := rfl
@[simp] theorem SpanRecord.core_landmarks (r : SpanRecord) : r.core.landmarks = r.landmarks := rfl
@[simp] theorem SpanRecord.core_clamped (r : SpanRecord) : r.core.clamped = r.clamped := rfl

theorem Entry.core_id (e : Entry) : e.core.id = e.id := by cases e <;> rfl

theorem Entry.span?_core (e : Entry) : e.core.span? = e.span?.map SpanRecord.core := by cases e <;> rfl

theorem map_id_core (s : State) : s.core.map Entry.id = s.directory.map Entry.id := by
  rw [State.core, List.map_map]
  exact List.map_congr_left (fun e _ => Entry.core_id e)

theorem filterMap_core (s : State) : s.core.filterMap Entry.span? = s.spans.map SpanRecord.core := by
  rw [State.core, List.filterMap_map, State.spans, List.map_filterMap]
  exact List.filterMap_congr (fun e _ => Entry.span?_core e)

theorem map_core_spans {s t : State} (h : t.core = s.core) : t.spans.map SpanRecord.core = s.spans.map SpanRecord.core := by
  rw [← filterMap_core, h, filterMap_core]

/-- What is read off the core of a record is the same list of the spans of both directories. -/
theorem map_spans_of_core {α : Type} {s t : State} (h : t.core = s.core) (f : SpanRecord → α)
    (hf : ∀ r : SpanRecord, f r.core = f r) : t.spans.map f = s.spans.map f := by
  have through (u : State) : u.spans.map f = (u.spans.map SpanRecord.core).map f := by
    rw [List.map_map]
    exact List.map_congr_left (fun r _ => (hf r).symm)
  rw [through, map_core_spans h, ← through]

theorem exists_of_core {s t : State} (h : t.core = s.core) {q : SpanRecord} (hq : q ∈ t.spans) :
    ∃ r ∈ s.spans, r.core = q.core := by
  have mem : q.core ∈ t.spans.map SpanRecord.core := List.mem_map_of_mem hq
  rw [map_core_spans h] at mem
  exact List.mem_map.mp mem

/-- A span that exists is still there, under its identifier. -/
theorem held_of_core {s t : State} (h : t.core = s.core) {id : Nat} (held : ∃ r ∈ s.spans, r.id = id) :
    ∃ r ∈ t.spans, r.id = id := by
  obtain ⟨r, hr, rfl⟩ := held
  obtain ⟨q, hq, same⟩ := exists_of_core h.symm hr
  exact ⟨q, hq, (congrArg SpanRecord.id same :)⟩

/-! ### Soft operations -/

/-- From `s` to `t` no core of a directory entry changed, no coil record and no setting or credit of a class. -/
structure Soft (s t : State) : Prop where
  core    : t.core = s.core
  coils   : t.banks.map Bank.coil = s.banks.map Bank.coil
  classes : t.sched.classes = s.sched.classes

theorem Soft.refl (s : State) : Soft s s := ⟨rfl, rfl, rfl⟩

theorem Soft.trans {s t u : State} (h : Soft s t) (k : Soft t u) : Soft s u :=
  ⟨k.core.trans h.core, k.coils.trans h.coils, k.classes.trans h.classes⟩

/-- `Soft.trans` with the later operation first, which fixes the state in the middle. -/
theorem Soft.after {s t u : State} (k : Soft t u) (h : Soft s t) : Soft s u := h.trans k

/-- An operation that touches neither the directory nor the banks nor the scheduler is soft. -/
theorem Soft.of_frame {l : List Part} {s t : State} (frame : KeepsBut l s t)
    (apart : Part.apart l [.directory, .banks, .sched] = true) : Soft s t := by
  have same (p : Part) (hp : p ∈ [Part.directory, .banks, .sched]) : p.Same s t :=
    frame.same p (fun hl => by have := List.all_eq_true.mp apart p hp; simp [hl] at this)
  have directory : t.directory = s.directory := same .directory (by simp)
  have banks : t.banks = s.banks := same .banks (by simp)
  have sched : t.sched = s.sched := same .sched (by simp)
  exact ⟨by rw [State.core, directory, State.core], by rw [banks], by rw [sched]⟩

theorem core_map {s t : State} {g : Entry → Entry} (directory : t.directory = s.directory.map g)
    (hg : ∀ e, (g e).core = e.core) : t.core = s.core := by
  rw [State.core, directory, List.map_map, State.core]
  exact List.map_congr_left (fun e _ => hg e)

theorem Entry.core_modify {f : SpanRecord → SpanRecord} (hf : ∀ r : SpanRecord, (f r).core = r.core) (id : Nat) (e : Entry) :
    (e.modify id f).core = e.core := by
  cases e with
  | span r =>
    change (if r.id = id then Entry.span (f r) else .span r).core = _
    split
    · exact congrArg Entry.span (hf r)
    · rfl
  | vacated i => rfl

theorem core_modifySpan (s : State) (id : Nat) {f : SpanRecord → SpanRecord} (hf : ∀ r : SpanRecord, (f r).core = r.core) :
    (s.modifySpan id f).core = s.core := core_map rfl (Entry.core_modify hf id)

theorem soft_modifySpan (s : State) (id : Nat) {f : SpanRecord → SpanRecord} (hf : ∀ r : SpanRecord, (f r).core = r.core) :
    Soft s (s.modifySpan id f) := ⟨core_modifySpan s id hf, rfl, rfl⟩

theorem core_endLearn (r : SpanRecord) : r.endLearn.core = r.core := by
  unfold SpanRecord.endLearn
  split <;> rfl

theorem soft_endWithOutcome (s : State) (w : Work) (o : LastOutcome) : Soft s (s.endWithOutcome w o) := by
  have written (id : Nat) : Soft s (s.writeOutcome id o none) := soft_modifySpan s id (fun _ => rfl)
  cases w with
  | verify channel coil => exact .refl s
  | test kind id revision =>
    cases kind with
    | scheduled cls => exact written id
    | demand => exact written id
    | learn => exact (written id).trans (soft_modifySpan _ id core_endLearn)

theorem Pair.map_set {α β : Type} (f : α → β) (p : Pair α) (l : Letter) (x : α) :
    (p.set l x).map f = (p.map f).set l (f x) := by
  cases l <;> rfl

@[simp] theorem Pair.set_get {α : Type} (p : Pair α) (l : Letter) : p.set l (p.get l) = p := by
  cases l <;> rfl

theorem soft_setBank (s : State) (l : Letter) {b : Bank} (hb : b.coil = (s.banks.get l).coil) : Soft s (s.setBank l b) := by
  refine ⟨rfl, ?_, rfl⟩
  rw [State.setBank_banks, Pair.map_set, hb, ← Pair.get_map Bank.coil, Pair.set_get]

theorem soft_setChannel (s : State) (l : Letter) (c : Channel) : Soft s (s.setChannel l c) := ⟨rfl, rfl, rfl⟩

theorem soft_callDispatch (s : State) : Soft s s.callDispatch := ⟨rfl, rfl, rfl⟩

theorem soft_releaseBank (s : State) (ch : Letter) : Soft s (s.releaseBank ch) := by
  have coil (b : Bank) : (b.releasedBy ch).coil = b.coil := by
    unfold Bank.releasedBy
    split <;> rfl
  exact ⟨rfl, congrArg₂ Pair.mk (coil s.banks.a) (coil s.banks.b), rfl⟩

theorem soft_dropFlight (s : State) (ch : Letter) (f : Flight) (rest : Activity) : Soft s (s.dropFlight ch f rest) :=
  (soft_setChannel ..).after ((soft_releaseBank _ ch).after ⟨rfl, rfl, rfl⟩)

theorem soft_abortChannel (s : State) (ch : Letter) : Soft s (s.abortChannel ch) := by
  unfold State.abortChannel
  split
  · exact soft_dropFlight ..
  · exact .refl s
  · exact .refl s

theorem soft_settle (s : State) (l : Letter) (sense : Option Nat) : Soft s (s.settle l sense) := by
  have settled : Soft s (s.setBank l ((s.banks.get l).settled sense)) := soft_setBank s l rfl
  have faulted : Soft s (s.setBank l ((s.banks.get l).faulted sense)) := soft_setBank s l rfl
  unfold State.settle
  dsimp only
  split
  · split
    · exact settled
    · exact faulted
  split
  · split
    · exact settled.trans (soft_setChannel ..)
    · exact (faulted.trans (soft_endWithOutcome ..)).trans (soft_dropFlight ..)
  all_goals
    split
    · exact settled
    · exact faulted

theorem soft_takeBank (s : State) (ch l : Letter) (position : Nat) (sense : Option Nat) :
    Soft s (s.takeBank ch l position sense) := by
  unfold State.takeBank
  dsimp only
  split
  · split
    · exact (soft_settle ..).after (soft_setBank s l rfl)
    · exact soft_setBank s l rfl
  · split <;> exact soft_setBank s l rfl

theorem soft_started (s : State) (ch : Letter) (j : Job) : Soft s (s.started ch j) := by
  have unqueued : Soft s (s.unqueue j) := by
    cases j with
    | verify own => exact ⟨rfl, rfl, rfl⟩
    | test kind id => cases kind <;> exact ⟨rfl, rfl, rfl⟩
  exact (unqueued.trans (.of_frame (takeBuffers_frame ..) rfl)).trans (soft_setChannel ..)

theorem soft_dispatch (s : State) (ch : Letter) (j : Job) (senses : Pair (Option Nat)) :
    Soft s (s.dispatch ch j senses) := by
  unfold State.dispatch
  split
  · exact .refl s
  · exact (soft_started s ch j).trans (soft_takeBank ..)

theorem soft_requeueScheduled (s : State) (c : Fin 4) (id : Nat) : Soft s (s.requeueScheduled c id) := ⟨rfl, rfl, rfl⟩

theorem soft_markChannel (s : State) (ch : Letter) : Soft s (s.markChannel ch) := soft_setChannel ..

theorem soft_startFiring (s : State) (ch : Letter) (f : Flight) : Soft s (s.startFiring ch f) := soft_setChannel ..

theorem soft_free1310 (s : State) (j : JobId) : Soft s (s.free1310 j) := ⟨rfl, rfl, rfl⟩

theorem soft_preemptFor (senses : Pair (Option Nat)) (s : State) (demand : Nat) :
    Soft s (State.preemptFor senses s demand) := by
  unfold State.preemptFor
  split
  · exact .refl s
  · exact (soft_dispatch ..).after ((soft_requeueScheduled ..).after (soft_abortChannel ..))

theorem soft_takeHead (s : State) : Soft s s.takeHead := .of_frame (takeHead_frame s) rfl

theorem soft_handOn (s : State) (ch : Letter) (f : Flight) : Soft s (s.handOn ch f) := by
  unfold State.handOn
  dsimp only
  exact (soft_takeHead _).after (Soft.trans ((soft_setChannel ..).trans (soft_releaseBank ..)) ⟨rfl, rfl, rfl⟩)

theorem soft_cut1310 (s : State) (ch : Letter) (f : Flight) : Soft s (s.cut1310 ch f) := by
  unfold State.cut1310
  split <;> exact (soft_handOn ..).after ⟨rfl, rfl, rfl⟩

theorem soft_closeAtChannel (s : State) (ch : Letter) : Soft s (s.closeAtChannel ch) := by
  unfold State.closeAtChannel
  split
  · exact .refl s
  · exact .refl s
  · exact soft_cut1310 ..
  all_goals
    split
    · exact ⟨rfl, rfl, rfl⟩
    · exact .refl s

theorem soft_drawn (s : State) : Soft s s.drawn := ⟨rfl, rfl, rfl⟩

theorem Entry.core_missIfIn (ids : List Nat) (e : Entry) : (e.missIfIn ids).core = e.core := by
  cases e with
  | span r =>
    change (if ids.contains r.id then Entry.span r.miss else .span r).core = _
    split <;> rfl
  | vacated i => rfl

theorem soft_closeWindow (s : State) : Soft s s.closeWindow := by
  have discarded : Soft s (({ s with timeBase := { s.timeBase with windowOpen := false } } : State).discardQueued) :=
    ⟨core_map rfl (Entry.core_missIfIn _), rfl, rfl⟩
  have atChannels : Soft s
      (({ s with timeBase := { s.timeBase with windowOpen := false } } : State).discardQueued).closeAtChannels :=
    closeAtChannels_keeps (P := Soft s) (fun u h => h.trans (soft_drawn u)) (fun u ch h => h.trans (soft_closeAtChannel u ch))
      discarded
  exact atChannels.trans (soft_callDispatch _)

theorem soft_returnJob (s : State) (w : Work) : Soft s (s.returnJob w) := by
  cases w with
  | verify channel coil => exact .refl s
  | test kind id revision =>
    cases kind with
    | scheduled cls =>
      unfold State.returnJob
      dsimp only
      split
      · exact ⟨rfl, rfl, rfl⟩
      · exact soft_modifySpan s id (fun _ => rfl)
    | demand => exact ⟨rfl, rfl, rfl⟩
    | learn => exact ⟨rfl, rfl, rfl⟩

theorem soft_inhibitChannel (s : State) (ch : Letter) : Soft s (s.inhibitChannel ch) := by
  unfold State.inhibitChannel
  split
  · exact ⟨rfl, rfl, rfl⟩
  · exact (soft_returnJob ..).after ((soft_markChannel ..).after (soft_dropFlight ..))
  · exact .refl s

theorem soft_liveGone (s : State) (w : Work) : Soft s (s.liveGone w) := by
  cases w with
  | test kind id revision =>
    refine soft_modifySpan s id (fun r => ?_)
    split <;> rfl
  | verify channel coil => exact .refl s

theorem soft_guardDone (s : State) (ch : Letter) (f : Flight) (level : Nat) : Soft s (s.guardDone ch f level) := by
  have found : Soft s (s.liveFound f.work) := by
    cases f.work with
    | test kind id revision => exact soft_modifySpan s id (fun _ => rfl)
    | verify channel coil => exact .refl s
  unfold State.guardDone
  split
  · exact (soft_endWithOutcome ..).trans (soft_dropFlight ..)
  split
  · unfold State.guardLive
    dsimp only
    split
    · exact (soft_startFiring ..).after ((soft_free1310 ..).after found)
    · exact (soft_startFiring ..).after found
  · exact (soft_startFiring ..).after (soft_liveGone ..)

theorem soft_leaveAnalysisQueue (s : State) (j : JobId) : Soft s (s.leaveAnalysisQueue j) :=
  (soft_takeHead _).after ⟨rfl, rfl, rfl⟩

theorem soft_removeJob (s : State) (id : Nat) (place : JobPlace) : Soft s (s.removeJob id place) := by
  cases place with
  | classQueue c => exact ⟨rfl, rfl, rfl⟩
  | demandQueue learn => exact ⟨rfl, rfl, rfl⟩
  | channel ch f => exact soft_abortChannel s ch
  | waiting f => exact soft_leaveAnalysisQueue s _
  | analysing a => exact .refl s

theorem soft_writeCancelled (s : State) (id : Nat) (learn : Bool) : Soft s (s.writeCancelled id learn) := by
  have written : Soft s (s.writeOutcome id .cancelled none) := soft_modifySpan s id (fun _ => rfl)
  unfold State.writeCancelled
  dsimp only
  split
  · exact written.trans (soft_modifySpan _ id core_endLearn)
  · exact written

theorem soft_cancelJob (s : State) (id : Nat) (place : JobPlace) : Soft s (cancelJob s id place) := by
  have removed (p : JobPlace) (learn : Bool) : Soft s ((s.removeJob id p).writeCancelled id learn) :=
    (soft_removeJob s id p).trans (soft_writeCancelled ..)
  cases place with
  | analysing a =>
    unfold cancelJob
    dsimp only
    split
    · exact .refl s
    · exact (soft_writeCancelled ..).after ⟨rfl, rfl, rfl⟩
  | _ => unfold cancelJob; exact removed ..

theorem soft_restoreBank (s : State) (l : Letter) (sense : Option Nat) : Soft s (s.restoreBank l sense) := by
  unfold State.restoreBank
  dsimp only
  split
  · exact (soft_callDispatch _).after ((soft_settle ..).after (soft_setBank s l rfl))
  · exact (soft_callDispatch _).after (soft_setBank s l rfl)

end Sys2Proof.Machine
end

section
/-! PROOFS. The laws of the span directory under a step: its order, room and fields, the ports (R2 to R4) and the landmark
pool (R29, R30); O17 and O19. -/

namespace Sys2Proof.Machine

/-! ### A directory that loses entries -/

/-- From `s` to `t` entries may have left the directory and spans may have become vacated reports; what stays keeps its
order, its identifiers and its cores. -/
structure Shrinks (s t : State) : Prop where
  ids   : (t.directory.map Entry.id).Sublist (s.directory.map Entry.id)
  spans : (t.spans.map SpanRecord.core).Sublist (s.spans.map SpanRecord.core)

theorem Shrinks.of_core {s t : State} (h : t.core = s.core) : Shrinks s t := by
  refine ⟨?_, (map_core_spans h).symm ▸ List.Sublist.refl _⟩
  rw [← map_id_core, h, map_id_core]

theorem Shrinks.trans {s t u : State} (h : Shrinks s t) (k : Shrinks t u) : Shrinks s u :=
  ⟨k.ids.trans h.ids, k.spans.trans h.spans⟩

theorem inRange_core (r : SpanRecord) : r.core.InRange ↔ r.InRange :=
  ⟨fun h => ⟨h.id, h.position, h.interval, h.phase, h.clamped⟩, fun h => ⟨h.id, h.position, h.interval, h.phase, h.clamped⟩⟩

/-- What is read off the core of a record is a sublist for the spans that stay. -/
theorem Shrinks.map_sublist {α : Type} {s t : State} (h : Shrinks s t) (f : SpanRecord → α)
    (hf : ∀ r : SpanRecord, f r.core = f r) : (t.spans.map f).Sublist (s.spans.map f) := by
  have through (u : State) : u.spans.map f = (u.spans.map SpanRecord.core).map f := by
    rw [List.map_map]
    exact List.map_congr_left (fun r _ => (hf r).symm)
  rw [through, through]
  exact h.spans.map f

theorem DirectoryLaw.of_shrinks {s t : State} (h : Shrinks s t) (law : DirectoryLaw s) : DirectoryLaw t := by
  refine ⟨law.order.sublist h.ids, ?room, fun q hq => ?fields⟩
  case room =>
    have lengths := h.ids.length_le
    simp only [List.length_map] at lengths
    exact lengths.trans law.room
  case fields =>
    obtain ⟨r, hr, same⟩ := List.mem_map.mp (h.spans.mem (List.mem_map_of_mem hq))
    rw [← inRange_core, ← same, inRange_core]
    exact law.fields r hr

/-- The port law as a law of the ports of the spans in their order. -/
theorem portLaw_iff (s : State) :
    PortLaw s ↔ (s.spans.map (fun r => (r.bank, r.position))).Pairwise (fun a b => a.1 ≠ b.1 ∨ a.2 ≠ b.2) ∧
      ∀ port ∈ s.spans.map (fun r => (r.bank, r.position)), port.2 ≠ 0 := by
  constructor
  · rintro ⟨distinct, nonzero⟩
    exact ⟨List.pairwise_map.mpr distinct, by simpa using nonzero⟩
  · rintro ⟨distinct, nonzero⟩
    exact ⟨List.pairwise_map.mp distinct, fun r hr => nonzero _ (List.mem_map_of_mem hr)⟩

theorem PortLaw.of_shrinks {s t : State} (h : Shrinks s t) (law : PortLaw s) : PortLaw t := by
  have ports := h.map_sublist (fun r => (r.bank, r.position)) (fun _ => rfl)
  obtain ⟨distinct, nonzero⟩ := (portLaw_iff s).mp law
  exact (portLaw_iff t).mpr ⟨distinct.sublist ports, fun port hp => nonzero port (ports.mem hp)⟩

/-- The law of the pool as a law of the landmark lists of the spans. -/
theorem poolLaw_iff (s : State) :
    PoolLaw s ↔ (∀ l ∈ s.spans.map SpanRecord.landmarks, ListLaw l) ∧
      ((s.spans.map SpanRecord.landmarks).map List.length).sum ≤ 2048 := by
  rw [List.map_map]
  exact ⟨fun ⟨lists, total⟩ => ⟨by simpa using lists, total⟩,
    fun ⟨lists, total⟩ => ⟨fun r hr => lists _ (List.mem_map_of_mem hr), total⟩⟩

theorem PoolLaw.of_shrinks {s t : State} (h : Shrinks s t) (law : PoolLaw s) : PoolLaw t := by
  have lists := h.map_sublist SpanRecord.landmarks (fun _ => rfl)
  obtain ⟨each, total⟩ := (poolLaw_iff s).mp law
  exact (poolLaw_iff t).mpr ⟨fun l hl => each l (lists.mem hl), ((lists.map _).sum_le_sum (by simp)).trans total⟩

theorem shrinks_becomeEmpty (s : State) (id : Nat) : Shrinks s (s.becomeEmpty id) := by
  refine ⟨(emptied_becomeEmpty s id).order ▸ List.Sublist.refl _, ?_⟩
  rw [spans_becomeEmpty]
  exact List.filter_sublist.map _

/-- Entries that are kept or left out one by one, each kept under its own reading, leave a sublist of the readings. -/
theorem filterMap_sublist_map {α β : Type} {f : α → Option β} {g : α → β} (h : ∀ x, f x = none ∨ f x = some (g x))
    (l : List α) : (l.filterMap f).Sublist (l.map g) := by
  induction l with
  | nil => exact .refl _
  | cons x rest ih =>
    rcases h x with left | kept
    · rw [List.filterMap_cons_none left]
      exact ih.cons _
    · rw [List.filterMap_cons_some kept]
      exact ih.cons_cons _

theorem spans_returnItems (s : State) (items : List Item) :
    (s.returnItems items).spans =
      s.spans.map (fun r => if Entry.among items (.span r) then { r with mark := false } else r) := by
  change (s.directory.filterMap _).filterMap Entry.span? = (s.directory.filterMap Entry.span?).map _
  rw [List.filterMap_filterMap, List.map_filterMap]
  refine List.filterMap_congr (fun e _ => ?_)
  cases e with
  | span r => by_cases among : Entry.among items (.span r) = true <;> simp [among, Entry.returned, Entry.span?]
  | vacated i => by_cases among : Entry.among items (.vacated i) = true <;> simp [among, Entry.returned, Entry.span?]

theorem shrinks_returnItems (s : State) (items : List Item) : Shrinks s (s.returnItems items) := by
  constructor
  case ids =>
    change ((s.directory.filterMap _).map Entry.id).Sublist _
    rw [List.map_filterMap]
    refine filterMap_sublist_map (fun e => ?_) _
    cases e with
    | span r => by_cases among : Entry.among items (.span r) = true <;> simp [among, Entry.returned, Entry.id]
    | vacated i => by_cases among : Entry.among items (.vacated i) = true <;> simp [among, Entry.returned]
  case spans =>
    rw [spans_returnItems, List.map_map]
    refine (List.map_congr_left (fun r _ => ?_)).symm ▸ List.Sublist.refl (s.spans.map SpanRecord.core)
    dsimp only [Function.comp_apply]
    split <;> rfl

theorem core_restartedRecord (missed : List Nat) (r : SpanRecord) : (r.restarted missed).core = r.core := by
  unfold SpanRecord.restarted
  rw [core_endLearn]
  split <;> rfl

theorem Entry.id_restarted (missed : List Nat) (e : Entry) : (e.restarted missed).id = e.id := by
  cases e with
  | vacated i => rfl
  | span r =>
    change (if r.state = .retiring then Entry.vacated r.id else .span (r.restarted missed)).id = r.id
    split
    · rfl
    · exact (congrArg SpanRecord.id (core_restartedRecord missed r) :)

theorem spans_restarted (s : State) :
    s.restarted.spans =
      (s.spans.filter (fun r => r.state != .retiring)).map (SpanRecord.restarted s.scheduledSpans) := by
  change (s.directory.map _).filterMap Entry.span? = ((s.directory.filterMap Entry.span?).filter _).map _
  rw [List.filterMap_map, List.filter_filterMap, List.map_filterMap]
  refine List.filterMap_congr (fun e _ => ?_)
  cases e with
  | span r => by_cases retiring : r.state = .retiring <;> simp [Entry.restarted, retiring, Entry.span?]
  | vacated i => rfl

theorem shrinks_restarted (s : State) : Shrinks s s.restarted := by
  constructor
  case ids =>
    change ((s.directory.map (Entry.restarted s.scheduledSpans)).map Entry.id).Sublist _
    rw [List.map_map]
    exact (List.map_congr_left (fun e _ => Entry.id_restarted _ e)).symm ▸ List.Sublist.refl (s.directory.map Entry.id)
  case spans =>
    rw [spans_restarted, List.map_map]
    exact (List.map_congr_left (fun r _ => core_restartedRecord _ r)).symm ▸ List.filter_sublist.map SpanRecord.core

/-! ### The commands that leave every core -/

theorem core_dispatchPass (s : State) (senses : Pair (Option Nat)) : (s.dispatchPass senses).core = s.core := by
  refine dispatchPass_keeps (P := fun u => u.core = s.core) (fun _ h => h) (fun _ _ h => h) (fun u ch h => ?_)
    (fun u demand _ h => (soft_preemptFor senses u demand).core.trans h) rfl
  exact considerChannel_keeps (P := fun u => u.core = s.core)
    (fun v j _ _ hv => (soft_dispatch { v with sched := (v.choose ch).sched } ch j senses).core.trans hv) h

theorem core_retestWindow (s : State) (held : List Nat) : (s.retestWindow held).core = s.core :=
  retestWindow_keeps (P := fun u => u.core = s.core)
    (fun _ => core_dispatchPass (s.raiseWindow.drawn.setAside held) s.drawnSenses) (fun _ => (soft_closeWindow s).core) rfl

/-- The requests that give the directory an entry, take one from it, or change a landmark list or a host-written field. -/
def reshapesDirectory : Instr → Bool
  | .spanPut _ => true
  | .spanRetire _ => true
  | .marksAppend _ => true
  | .marksClear _ => true
  | .changesRead => true
  | .restart => true
  | _ => false

theorem core_of_directory {s t : State} (h : t.directory = s.directory) : t.core = s.core := by
  rw [State.core, h, State.core]

theorem core_of_frame {l : List Part} {s t : State} (frame : KeepsBut l s t) (apart : Part.apart l [.directory] = true) :
    t.core = s.core :=
  core_of_directory (frame.same .directory (fun hl => by have := List.all_eq_true.mp apart .directory (by simp); simp [hl] at this))

/-- Any other request leaves every core. -/
theorem act_core {i : Instr} {n : Nat} {act : State → State × Reply} (h : requestAct i = some (n, act))
    (keeps : reshapesDirectory i = false) (s : State) : (act s).1.core = s.core := by
  have frame := act_frame h s
  cases i
  case spanHold id =>
    cases h
    change (actSpanHold id s).1.core = s.core
    unfold actSpanHold
    repeat' split
    · rfl
    · exact core_modifySpan (s.leaveClassQueue _) _ (fun _ => rfl)
    · rfl
  case spanResume id =>
    cases h
    change (actSpanResume id s).1.core = s.core
    unfold actSpanResume
    repeat' split
    · rfl
    · exact core_modifySpan s _ (fun _ => rfl)
    · rfl
  case spanLearn id =>
    cases h
    change (actSpanLearn id s).1.core = s.core
    unfold actSpanLearn
    repeat' split
    · rfl
    · rfl
    · exact core_modifySpan s _ (fun _ => rfl)
  case testCancel id =>
    cases h
    change (actTestCancel id s).1.core = s.core
    unfold actTestCancel
    repeat' split
    all_goals first | rfl | exact (soft_cancelJob ..).core
  case clockSet t =>
    cases h
    change (actClockSet t s).1.core = s.core
    unfold actClockSet
    split
    · rfl
    · exact core_retestWindow { s with timeBase := _ } []
  case windowSet o c =>
    cases h
    change (actWindowSet o c s).1.core = s.core
    unfold actWindowSet
    split
    · rfl
    · exact core_retestWindow { s with timeBase := _ } []
  case bankRestore bank sense =>
    cases h
    change (actBankRestore bank sense s).1.core = s.core
    unfold actBankRestore
    repeat' split
    all_goals first | rfl | exact (soft_restoreBank ..).core
  case spanPut | spanRetire | marksAppend | marksClear | changesRead | restart => cases keeps
  all_goals exact core_of_frame frame rfl

/-- Every event but an analysis completion leaves every core. -/
theorem event_core {i : Instr} {s t : State} (touches : Part.apart (eventParts i) [.directory] = false)
    (notCompletion : i ≠ .analysisCompletion) (h : exec i s = .next t) : t.core = s.core := by
  cases i
  case inhibitAsserted =>
    have asserted : ({ s with inputs := { s.inputs with inhibit := true } } : State).core = s.core := rfl
    have stops (u : State) (ch : Letter) (hu : u.core = s.core) : (u.inhibitChannel ch).core = s.core :=
      (soft_inhibitChannel u ch).core.trans hu
    change execInhibitAsserted s = .next t at h
    unfold execInhibitAsserted at h
    dsimp only at h
    split at h <;> cases h
    · exact eitherOrder_keeps (P := fun u => u.core = s.core) (fun _ hu => hu) stops asserted
    · exact stops _ _ (stops _ _ asserted)
  case timeAdvance =>
    cases h
    exact core_retestWindow { s.reach _ with timeBase := _ } _
  case settleCompletion l sense =>
    change execSettleCompletion l sense s = .next t at h
    unfold execSettleCompletion at h
    split at h <;> cases h
    · exact (soft_settle ..).core
    · rfl
  case guardCompletion ch sum =>
    change execGuardCompletion ch sum s = .next t at h
    unfold execGuardCompletion at h
    split at h <;> cases h
    · exact (soft_guardDone ..).core
    all_goals rfl
  case dispatchPass =>
    cases h
    exact core_dispatchPass ..
  case analysisCompletion => exact absurd rfl notCompletion
  all_goals cases touches

/-! ### The completion of an analysis -/

/-- What an analysis completion does to the directory: no core changes, the span becomes EMPTY, or it adopts the learned list
that the pool has room for. -/
theorem dispose_cases (s : State) (a : Analysis) :
    (s.dispose a).core = s.core ∨ (∃ id, a.flight.work.id = .span id ∧ s.dispose a = s.becomeEmpty id) ∨
      ∃ (id : Nat) (x : Extraction), (learnedList x).length ≤ s.poolFree ∧
        (s.dispose a).directory = ((s.writeOutcome id .clean (some x.endDistance)).modifySpan id
          (SpanRecord.adopt (learnedList x))).directory := by
  have written (o : LastOutcome) (id : Nat) (d : Option Nat) : (s.writeOutcome id o d).core = s.core :=
    core_modifySpan s id (fun _ => rfl)
  have dropped (n : Nat) : ∀ r : SpanRecord, (SpanRecord.dropFindings n r).core = r.core := by
    induction n with
    | zero => exact fun _ => rfl
    | succ n ih => exact fun r => ih r.dropFinding
  have tested (id : Nat) (c : SpanCopy) (x : Extraction) :
      (if c.landmarks = [] then s.judgeBare id x else s.judgeBaseline id a.flight c x).core = s.core := by
    split
    · exact written ..
    · exact (core_modifySpan _ _ (dropped _)).trans (written ..)
  unfold State.dispose
  split
  · split <;> exact .inl rfl
  next kind id revision work =>
  split
  · exact .inl rfl
  unfold State.disposeSpan
  split
  · exact .inr (.inl ⟨id, by rw [work]; rfl, rfl⟩)
  split
  · exact .inl rfl
  split
  · exact .inl (soft_endWithOutcome ..).core
  split
  · unfold State.judgeSpan
    dsimp only
    split
    · unfold State.judgeLearn
      split
      · exact .inl (soft_endWithOutcome ..).core
      unfold State.adoptList
      dsimp only
      split
      next fits => exact .inr (.inr ⟨_, _, fits, rfl⟩)
      next => exact .inl ((core_modifySpan _ _ core_endLearn).trans (written ..))
    · exact .inl (tested ..)
    · exact .inl (tested ..)
  · exact .inl rfl

/-! ### The induction for a law of the directory -/

/-- A law of the directory is kept by every step if the reset values have it, a directory that loses entries keeps it, and
SPAN_PUT, MARKS_APPEND, MARKS_CLEAR and the adoption of a learned list keep it. -/
theorem directory_step_keeps {P : State → Prop} (reads : Reads [.directory] P) (reset : HoldsAtReset P)
    (shrinks : ∀ s t, Shrinks s t → P s → P t) (put : ∀ b s, P s → P (actSpanPut b s).1)
    (append : ∀ body s, P s → P (actMarksAppend body s).1) (clear : ∀ id s, P s → P (actMarksClear id s).1)
    (adopt : ∀ (s : State) (id : Nat) (x : Extraction), (learnedList x).length ≤ s.poolFree → P s →
      P ((s.writeOutcome id .clean (some x.endDistance)).modifySpan id (SpanRecord.adopt (learnedList x))))
    {s t : State} (h : P s) (ran : step s = .next t) : P t := by
  have of_core {u v : State} (same : v.core = u.core) (hu : P u) : P v := shrinks u v (.of_core same) hu
  have of_directory {u v : State} (same : v.directory = u.directory) (hu : P u) : P v :=
    of_core (core_of_directory same) hu
  refine step_keeps reads rfl reset (fun i n act u kind hu => ?requests) (fun i u v touches ran hu => ?events) h ran
  case requests =>
    cases i
    case spanPut b => cases kind; exact put b u hu
    case marksAppend body => cases kind; exact append body u hu
    case marksClear id => cases kind; exact clear id u hu
    case changesRead => cases kind; exact shrinks u _ (shrinks_returnItems ..) hu
    case restart => cases kind; exact shrinks u _ (shrinks_restarted u) hu
    case spanRetire id =>
      cases kind
      unfold actSpanRetire
      repeat' split
      · exact hu
      · exact hu
      unfold retireSpan
      split
      · exact of_core (core_modifySpan u _ (fun _ => rfl)) hu
      · exact shrinks _ _ (shrinks_becomeEmpty ..) (of_core (soft_removeJob ..).core hu)
      · exact shrinks _ _ (shrinks_becomeEmpty ..) hu
    all_goals exact of_core (act_core kind rfl u) hu
  case events =>
    by_cases completion : i = .analysisCompletion
    case neg => exact of_core (event_core touches completion ran) hu
    subst completion
    change execAnalysisCompletion u = .next v at ran
    unfold execAnalysisCompletion at ran
    split at ran <;> cases ran
    · exact hu
    next a _ =>
      refine of_directory ((endAnalysis_frame ((u.reach a.due).dispose a) a).same .directory (by decide)) ?_
      have hr : P (u.reach a.due) := of_directory (u := u) rfl hu
      rcases dispose_cases (u.reach a.due) a with same | ⟨id, -, empty⟩ | ⟨id, x, fits, adopted⟩
      · exact of_core same hr
      · rw [empty]
        exact shrinks _ _ (shrinks_becomeEmpty ..) hr
      · exact of_directory adopted (adopt _ id x fits hr)

end Sys2Proof.Machine
end

section
/-! PROOFS. What SPAN_PUT, MARKS_APPEND, MARKS_CLEAR and an adoption do to the directory (R6 to R9, R32 to R37, R39, R40), and
the laws of the directory and of the pool: O17 and O19. -/

namespace Sys2Proof.Machine

/-! ### One record among the spans -/

theorem modifySpan_spans_of_unheld {s : State} {id : Nat} (unheld : ∀ r ∈ s.spans, r.id ≠ id) (f : SpanRecord → SpanRecord) :
    (s.modifySpan id f).spans = s.spans := by
  rw [spans_modifySpan]
  exact (List.map_congr_left (fun r hr => if_neg (unheld r hr))).trans (List.map_id _)

/-- A span stands at one place in the order, and a writing of its record changes that place alone. -/
theorem spans_split {s : State} (law : DirectoryLaw s) {r : SpanRecord} (hr : r ∈ s.spans) :
    ∃ before after, s.spans = before ++ r :: after ∧
      ∀ f, (s.modifySpan r.id f).spans = before ++ f r :: after := by
  obtain ⟨before, after, split⟩ := List.append_of_mem hr
  have order := ids_pairwise_of_law law
  rw [split, List.map_append, List.map_cons, List.pairwise_append, List.pairwise_cons] at order
  obtain ⟨-, ⟨above, -⟩, below⟩ := order
  refine ⟨before, after, split, fun f => ?_⟩
  have others (l : List SpanRecord) (h : ∀ q ∈ l, q.id ≠ r.id) :
      l.map (fun q => if q.id = r.id then f q else q) = l :=
    (List.map_congr_left (fun q hq => if_neg (h q hq))).trans (List.map_id _)
  rw [spans_modifySpan, split, List.map_append, List.map_cons, if_pos rfl, others before, others after]
  · exact fun q hq => (above q.id (List.mem_map_of_mem hq)).ne'
  · exact fun q hq => (below q.id (List.mem_map_of_mem hq) r.id List.mem_cons_self).ne

/-- A record written over every span of the identifier is, under the law, that span's own record rewritten. -/
theorem modifySpan_const {s : State} (law : DirectoryLaw s) {r : SpanRecord} (hr : r ∈ s.spans)
    (f : SpanRecord → SpanRecord) : s.modifySpan r.id (fun _ => f r) = s.modifySpan r.id f := by
  have same : s.directory.map (Entry.modify r.id (fun _ => f r)) = s.directory.map (Entry.modify r.id f) := by
    refine List.map_congr_left (fun e he => ?_)
    cases e with
    | vacated i => rfl
    | span q =>
      by_cases hq : q.id = r.id
      · rw [eq_of_id_eq law (List.mem_filterMap.mpr ⟨_, he, rfl⟩) hr hq]
        simp [Entry.modify]
      · simp [Entry.modify, hq]
  exact congrArg (fun d => ({ s with directory := d } : State)) same

theorem DirectoryLaw.modifySpan {s : State} (law : DirectoryLaw s) {id : Nat} {f : SpanRecord → SpanRecord}
    (keepsId : ∀ r, r.id = id → (f r).id = id) (inRange : ∀ r ∈ s.spans, r.id = id → (f r).InRange) :
    DirectoryLaw (s.modifySpan id f) := by
  have ids := ids_modifySpan (s := s) keepsId
  refine ⟨ids ▸ law.order, ?room, fun q hq => ?fields⟩
  case room =>
    rw [State.modifySpan_directory, List.length_map]
    exact law.room
  case fields =>
    rw [spans_modifySpan] at hq
    obtain ⟨r, hr, rfl⟩ := List.mem_map.mp hq
    split
    next named => exact inRange r hr named
    next => exact law.fields r hr

theorem PortLaw.modifySpan {s : State} (law : PortLaw s) {id : Nat} {f : SpanRecord → SpanRecord}
    (keepsPort : ∀ r ∈ s.spans, r.id = id → (f r).bank = r.bank ∧ (f r).position = r.position) :
    PortLaw (s.modifySpan id f) := by
  have ports : (s.modifySpan id f).spans.map (fun r => (r.bank, r.position)) =
      s.spans.map (fun r => (r.bank, r.position)) := by
    rw [spans_modifySpan, List.map_map]
    refine List.map_congr_left (fun r hr => ?_)
    dsimp only [Function.comp_apply]
    split
    next named => rw [(keepsPort r hr named).1, (keepsPort r hr named).2]
    next => rfl
  rw [portLaw_iff, ports, ← portLaw_iff]
  exact law

/-- A span moved to a port that no span is bound to. -/
theorem PortLaw.move {s : State} (directory : DirectoryLaw s) (law : PortLaw s) {r : SpanRecord} (hr : r ∈ s.spans)
    {f : SpanRecord → SpanRecord} (nonzero : (f r).position ≠ 0)
    (unbound : ∀ q ∈ s.spans, ¬(q.bank = (f r).bank ∧ q.position = (f r).position)) :
    PortLaw (s.modifySpan r.id f) := by
  obtain ⟨before, after, split, moved⟩ := spans_split directory hr
  have free : ∀ q ∈ s.spans, q.bank ≠ (f r).bank ∨ q.position ≠ (f r).position := fun q hq => not_and_or.mp (unbound q hq)
  have distinct := law.distinct
  have ports := law.nonzero
  rw [split, List.pairwise_append, List.pairwise_cons] at distinct
  rw [split] at free ports
  obtain ⟨first, ⟨-, second⟩, apart⟩ := distinct
  simp only [List.mem_append, List.mem_cons, or_imp, forall_and, forall_eq] at free ports
  obtain ⟨freeBefore, -, freeAfter⟩ := free
  obtain ⟨portsBefore, -, portsAfter⟩ := ports
  constructor
  · rw [moved f, List.pairwise_append, List.pairwise_cons]
    refine ⟨first, ⟨fun q hq => (freeAfter q hq).imp Ne.symm Ne.symm, second⟩, fun p hp q hq => ?_⟩
    rcases List.mem_cons.mp hq with rfl | hq
    · exact freeBefore p hp
    · exact apart p hp q (List.mem_cons_of_mem _ hq)
  · rw [moved f]
    simp only [List.mem_append, List.mem_cons, or_imp, forall_and, forall_eq]
    exact ⟨portsBefore, nonzero, portsAfter⟩

theorem PoolLaw.modifySpan {s : State} (directory : DirectoryLaw s) (law : PoolLaw s) {id : Nat}
    {f : SpanRecord → SpanRecord}
    (fits : ∀ r ∈ s.spans, r.id = id →
      ListLaw (f r).landmarks ∧ (f r).landmarks.length ≤ r.landmarks.length + s.poolFree) : PoolLaw (s.modifySpan id f) := by
  by_cases held : ∃ r ∈ s.spans, r.id = id
  case neg =>
    simp only [not_exists, not_and] at held
    have same := modifySpan_spans_of_unheld held f
    exact ⟨same ▸ law.lists, same ▸ law.total⟩
  obtain ⟨r, hr, rfl⟩ := held
  obtain ⟨list, room⟩ := fits r hr rfl
  obtain ⟨before, after, split, written⟩ := spans_split directory hr
  have lists := law.lists
  have total := law.total
  rw [State.poolFree] at room
  rw [split] at lists total room
  simp only [List.mem_append, List.mem_cons, or_imp, forall_and, forall_eq] at lists
  obtain ⟨listsBefore, -, listsAfter⟩ := lists
  simp only [List.map_append, List.map_cons, List.sum_append, List.sum_cons] at total room
  constructor
  · rw [written f]
    simp only [List.mem_append, List.mem_cons, or_imp, forall_and, forall_eq]
    exact ⟨listsBefore, list, listsAfter⟩
  · rw [written f]
    simp only [List.map_append, List.map_cons, List.sum_append, List.sum_cons]
    omega

/-! ### The fields that SPAN_PUT carries (R6, R7) -/

theorem clamp_mem {lo hi : Nat} (range : lo ≤ hi) (x : Nat) : lo ≤ clamp lo hi x ∧ clamp lo hi x ≤ hi := by
  rw [clamp_eq_max_min range]
  omega

theorem inRange_clamped (f : ClampedFields) : (SpanClamp.clamped f).InRange where
  groupIndex     := clamp_mem (by decide) _
  launchOffset   := (clamp_mem (Nat.zero_le 4095) _).2
  attenuation    := clamp_mem (by decide) _
  lossThreshold  := clamp_mem (by decide) _
  driftThreshold := clamp_mem (by decide) _
  bendMargin     := clamp_mem (by decide) _
  matchTolerance := clamp_mem (by decide) _
  confirmCount   := clamp_mem (by decide) _
  clearCount     := clamp_mem (by decide) _

/-- The checked fields are those that the body carries. -/
structure CarriesChecked (b : SpanFields) (c : CheckedFields) : Prop where
  bank     : bankOfByte b.bank = some c.bank
  position : c.position = b.position.toNat
  profile  : c.profile.val = b.profile.toNat
  cls      : c.cls.val = b.cls.toNat
  interval : c.interval = b.interval.toNat
  phase    : c.phase = b.phase.toNat

theorem finOfNat_eq_some {n k : Nat} {i : Fin n} (h : finOfNat n k = some i) : i.val = k := by
  unfold finOfNat at h
  split at h <;> cases h
  rfl

theorem bankOfByte_le {b : Byte} {l : Letter} (h : bankOfByte b = some l) : b.toNat ≤ 1 := by
  by_contra above
  rw [bankOfByte_of_gt (not_le.mp above)] at h
  cases h

/-- The checked fields are found exactly where each is in its range, and are then those carried (R6 step 2). -/
theorem checkedFields_eq_some {b : SpanFields} {c : CheckedFields} (h : checkedFields b = some c) :
    CheckedInRange b ∧ CarriesChecked b c := by
  unfold checkedFields at h
  split at h
  case h_2 => cases h
  next bank profile cls hb hp hc =>
    split at h <;> cases h
    next ranges =>
      obtain ⟨lower, upper, atLeast, atMost, phase⟩ := ranges
      have profileVal := finOfNat_eq_some hp
      have clsVal := finOfNat_eq_some hc
      exact ⟨⟨bankOfByte_le hb, ⟨lower, upper⟩, by omega, by omega, ⟨atLeast, atMost⟩, phase⟩,
        ⟨hb, rfl, profileVal, clsVal, rfl, rfl⟩⟩

theorem exists_bankOfByte {b : Byte} (h : b.toNat ≤ 1) : ∃ l, bankOfByte b = some l := by
  unfold bankOfByte
  split
  · exact ⟨_, rfl⟩
  · rw [if_pos (by omega)]
    exact ⟨_, rfl⟩

theorem exists_checkedFields {b : SpanFields} (h : CheckedInRange b) : ∃ c, checkedFields b = some c := by
  obtain ⟨l, letter⟩ := exists_bankOfByte h.bank
  have profile : finOfNat 8 b.profile.toNat = some ⟨_, Nat.lt_succ_of_le h.profile⟩ := dif_pos _
  have cls : finOfNat 4 b.cls.toNat = some ⟨_, Nat.lt_succ_of_le h.cls⟩ := dif_pos _
  rw [checkedFields, letter, profile, cls]
  exact ⟨_, if_pos ⟨h.position.1, h.position.2, h.interval.1, h.interval.2, h.phase⟩⟩

theorem checkedFields_eq_none {b : SpanFields} (h : ¬ CheckedInRange b) : checkedFields b = none := by
  cases found : checkedFields b with
  | none => rfl
  | some c => exact absurd (checkedFields_eq_some found).1 h

/-! ### The record that an edit leaves (R9) -/

/-- The host-written fields of an edited record are the new ones, and everything but flags, revision and mark stands. -/
theorem edited_core (r : SpanRecord) (c : CheckedFields) (f : ClampedFields) (selection : Byte) :
    (r.edited c f selection).core = (r.withFields c f).core := by
  unfold SpanRecord.edited SpanRecord.markChange SpanRecord.countRevision
  split <;> split <;> rfl

theorem SpanRecord.InRange.of_fields {r : SpanRecord} {b : SpanFields} {c : CheckedFields} (hc : checkedFields b = some c)
    (id : 1 ≤ r.id ∧ r.id ≤ 65535) (position : r.position = c.position) (interval : r.interval = c.interval)
    (phase : r.phase = c.phase) (clamped : r.clamped = SpanClamp.clamped (SpanClamp.carried b)) : r.InRange := by
  obtain ⟨ranges, carries⟩ := checkedFields_eq_some hc
  refine ⟨id, ?_, ?_, ?_, clamped ▸ inRange_clamped _⟩
  · rw [position, carries.position]
    exact ranges.position
  · rw [interval, carries.interval]
    exact ranges.interval
  · rw [phase, interval, carries.phase, carries.interval]
    exact ranges.phase

theorem inRange_edited {r : SpanRecord} {b : SpanFields} {c : CheckedFields} (hc : checkedFields b = some c)
    (hr : r.InRange) (selection : Byte) :
    (r.edited c (SpanClamp.clamped (SpanClamp.carried b)) selection).InRange := by
  rw [← inRange_core, edited_core, inRange_core]
  exact .of_fields hc hr.id rfl rfl rfl rfl

theorem edited_id (r : SpanRecord) (c : CheckedFields) (f : ClampedFields) (selection : Byte) :
    (r.edited c f selection).id = r.id := (congrArg SpanRecord.id (edited_core r c f selection) :)

theorem edited_port (r : SpanRecord) (c : CheckedFields) (f : ClampedFields) (selection : Byte) :
    (r.edited c f selection).bank = c.bank ∧ (r.edited c f selection).position = c.position :=
  ⟨(congrArg SpanRecord.bank (edited_core r c f selection) :), (congrArg SpanRecord.position (edited_core r c f selection) :)⟩

theorem edited_landmarks (r : SpanRecord) (c : CheckedFields) (f : ClampedFields) (selection : Byte) :
    (r.edited c f selection).landmarks = r.landmarks := (congrArg SpanRecord.landmarks (edited_core r c f selection) :)

/-! ### A new span in its place (R3, R8) -/

theorem not_bound_of_none {s : State} {l : Letter} {position : Nat} (h : (s.boundTo l position).isSome = false) :
    ∀ q ∈ s.spans, ¬(q.bank = l ∧ q.position = position) := by
  intro q hq bound
  have unfound : s.boundTo l position = none := by simpa using h
  have other := List.find?_eq_none.mp unfound q hq
  simp [bound.1, bound.2] at other

theorem spans_eraseP_vacated (l : List Entry) :
    (l.eraseP Entry.isVacated).filterMap Entry.span? = l.filterMap Entry.span? := by
  induction l with
  | nil => rfl
  | cons e rest ih =>
    cases e with
    | span r => simpa [Entry.isVacated, Entry.span?] using ih
    | vacated i => rfl

theorem spans_roomFor (id : Nat) (l : List Entry) : (roomFor id l).filterMap Entry.span? = l.filterMap Entry.span? := by
  have others : (l.filter (fun e => !(e.isVacated && e.id == id))).filterMap Entry.span? = l.filterMap Entry.span? := by
    rw [List.filterMap_filter]
    refine List.filterMap_congr (fun e _ => ?_)
    cases e <;> simp [Entry.isVacated, Entry.span?]
  unfold roomFor
  dsimp only
  split
  · exact others
  · rw [spans_eraseP_vacated, others]

theorem roomFor_sublist (id : Nat) (l : List Entry) : (roomFor id l).Sublist l := by
  unfold roomFor
  dsimp only
  split
  · exact List.filter_sublist
  · exact List.eraseP_sublist.trans List.filter_sublist

/-- No entry of the identifier is left in the room made for a span that is new to the directory. -/
theorem id_ne_of_mem_roomFor {id : Nat} {l : List Entry} (new : ∀ r ∈ l.filterMap Entry.span?, r.id ≠ id) :
    ∀ e ∈ roomFor id l, e.id ≠ id := by
  have filtered : ∀ e ∈ l.filter (fun e => !(e.isVacated && e.id == id)), e.id ≠ id := by
    intro e he
    obtain ⟨mem, kept⟩ := List.mem_filter.mp he
    cases e with
    | span r => exact new r (List.mem_filterMap.mpr ⟨_, mem, rfl⟩)
    | vacated i => simpa [Entry.isVacated] using kept
  intro e he
  unfold roomFor at he
  dsimp only at he
  split at he
  · exact filtered e he
  · exact filtered e (List.mem_of_mem_eraseP he)

/-- A directory of at most 120 entries and fewer than 120 spans has room for one more after a vacated report has left. -/
theorem length_roomFor {id : Nat} {l : List Entry} (room : l.length ≤ 120) (spans : (l.filterMap Entry.span?).length < 120) :
    (roomFor id l).length < 120 := by
  have others := (List.filter_sublist (p := fun e : Entry => !(e.isVacated && e.id == id)) (l := l)).length_le
  have kept := congrArg List.length (spans_roomFor id l)
  unfold roomFor at kept ⊢
  dsimp only at kept ⊢
  split at kept
  next fits => rwa [if_pos fits]
  next full =>
    rw [if_neg full]
    by_cases reports : ∃ e ∈ l.filter (fun e => !(e.isVacated && e.id == id)), e.isVacated = true
    · obtain ⟨e, mem, vacated⟩ := reports
      rw [List.length_eraseP_of_mem mem vacated]
      omega
    · simp only [not_exists, not_and, Bool.not_eq_true] at reports
      rw [List.eraseP_of_forall_not (fun e he => by simp [reports e he])] at kept ⊢
      have all : ∀ m : List Entry, (∀ e ∈ m, e.isVacated = false) → (m.filterMap Entry.span?).length = m.length := by
        intro m hm
        induction m with
        | nil => rfl
        | cons e rest ih =>
          cases e with
          | span r => simpa [Entry.span?] using ih (fun e he => hm e (List.mem_cons_of_mem _ he))
          | vacated i => exact absurd (hm _ List.mem_cons_self) (by simp [Entry.isVacated])
      have := all _ reports
      omega

theorem perm_enter (r : SpanRecord) (l : List Entry) : (enter r l).Perm (.span r :: roomFor r.id l) := perm_insertBy ..

theorem perm_spans_enter (r : SpanRecord) (l : List Entry) :
    ((enter r l).filterMap Entry.span?).Perm (r :: l.filterMap Entry.span?) := by
  have entered := (perm_enter r l).filterMap Entry.span?
  rwa [List.filterMap_cons_some (show Entry.span? (.span r) = some r from rfl), spans_roomFor] at entered

/-- The state with a new span in its place. -/
def State.entered (s : State) (r : SpanRecord) : State := { s with directory := enter r s.directory }

theorem perm_spans_entered (s : State) (r : SpanRecord) : (s.entered r).spans.Perm (r :: s.spans) :=
  perm_spans_enter r s.directory

theorem DirectoryLaw.entered {s : State} (law : DirectoryLaw s) {r : SpanRecord} (new : ∀ q ∈ s.spans, q.id ≠ r.id)
    (room : s.spans.length < 120) (inRange : r.InRange) : DirectoryLaw (s.entered r) := by
  have roomIds : ((roomFor r.id s.directory).map Entry.id).Pairwise (· < ·) :=
    law.order.sublist ((roomFor_sublist r.id s.directory).map _)
  have ordered : (enter r s.directory).Pairwise (fun a b => decide (a.id ≤ b.id) = true) := by
    refine pairwise_insertBy (fun a b => ?_) (fun a b c hab hbc => ?_) _ ?_
    · simpa using le_total a.id b.id
    · simp only [decide_eq_true_eq] at hab hbc ⊢
      exact hab.trans hbc
    · exact (List.pairwise_map.mp roomIds).imp (fun h => by simpa using h.le)
  have distinct : ((enter r s.directory).map Entry.id).Nodup := by
    refine ((perm_enter r s.directory).map Entry.id).nodup_iff.mpr (List.nodup_cons.mpr ⟨fun mem => ?_, ?_⟩)
    · obtain ⟨e, he, same⟩ := List.mem_map.mp mem
      exact id_ne_of_mem_roomFor new e he same
    · exact roomIds.imp (fun h => h.ne)
  refine ⟨?order, ?room, fun q hq => ?fields⟩
  case order =>
    have both := (List.pairwise_map.mpr (ordered.imp (fun h => by simpa using h))).and distinct
    exact both.imp (fun ⟨le, ne⟩ => lt_of_le_of_ne le ne)
  case room =>
    change (enter r s.directory).length ≤ 120
    rw [(perm_enter r s.directory).length_eq]
    exact length_roomFor law.room room
  case fields =>
    rcases List.mem_cons.mp ((perm_spans_entered s r).mem_iff.mp hq) with rfl | old
    · exact inRange
    · exact law.fields q old

theorem PortLaw.entered {s : State} (law : PortLaw s) {r : SpanRecord} (nonzero : r.position ≠ 0)
    (unbound : ∀ q ∈ s.spans, ¬(q.bank = r.bank ∧ q.position = r.position)) : PortLaw (s.entered r) := by
  have perm := perm_spans_entered s r
  constructor
  · rw [perm.pairwise_iff (fun h => h.imp Ne.symm Ne.symm), List.pairwise_cons]
    exact ⟨fun q hq => (not_and_or.mp (unbound q hq)).imp Ne.symm Ne.symm, law.distinct⟩
  · intro q hq
    rcases List.mem_cons.mp (perm.mem_iff.mp hq) with rfl | old
    · exact nonzero
    · exact law.nonzero q old

theorem PoolLaw.entered {s : State} (law : PoolLaw s) {r : SpanRecord} (empty : r.landmarks = []) :
    PoolLaw (s.entered r) := by
  have perm := perm_spans_entered s r
  constructor
  · intro q hq
    rcases List.mem_cons.mp (perm.mem_iff.mp hq) with rfl | old
    · rw [empty]
      exact ⟨by simp, .nil⟩
    · exact law.lists q old
  · rw [(perm.map _).sum_eq, List.map_cons, List.sum_cons, empty]
    simpa using law.total

/-! ### SPAN_PUT -/

/-- What SPAN_PUT does to the directory: nothing; a span edited, at its own port or at one that is free; or a new span. -/
theorem actSpanPut_cases (b : SpanFields) (s : State) :
    (actSpanPut b s).1.directory = s.directory ∨
    (∃ c r, checkedFields b = some c ∧ r ∈ s.spans ∧
      ((r.bank = c.bank ∧ r.position = c.position) ∨ ∀ q ∈ s.spans, ¬(q.bank = c.bank ∧ q.position = c.position)) ∧
      (actSpanPut b s).1.directory =
        (s.modifySpan r.id (fun _ => r.edited c (SpanClamp.clamped (SpanClamp.carried b)) b.clearFlags)).directory) ∨
    ∃ c, checkedFields b = some c ∧ b.identifier.toNat ≠ 0 ∧ (∀ q ∈ s.spans, q.id ≠ b.identifier.toNat) ∧
      s.spans.length < 120 ∧ (∀ q ∈ s.spans, ¬(q.bank = c.bank ∧ q.position = c.position)) ∧
      (actSpanPut b s).1.directory =
        (s.entered (createdSpan b.identifier.toNat c (SpanClamp.clamped (SpanClamp.carried b)))).directory := by
  have free {l : Letter} {position : Nat} (h : s.refusesPort l position = none) :
      ∀ q ∈ s.spans, ¬(q.bank = l ∧ q.position = position) := by
    unfold State.refusesPort at h
    split at h
    · cases h
    split at h
    · cases h
    next unbound => exact not_bound_of_none (by simpa using unbound)
  unfold actSpanPut
  split
  · exact .inl rfl
  next nonzero =>
  split
  · exact .inl rfl
  next c hc =>
  split
  next r found =>
    obtain ⟨hr, -⟩ := findSpan_some found
    unfold editSpan
    split
    · exact .inl rfl
    next taken =>
    refine .inr (.inl ⟨c, r, hc, hr, ?port, ?written⟩)
    case written =>
      dsimp only
      split <;> rfl
    case port =>
      unfold State.refusesEdit at taken
      split at taken
      · cases taken
      split at taken
      next =>
        split at taken
        · cases taken
        · exact .inr (free taken)
      next stays =>
        refine .inl ?_
        simpa [SpanRecord.moves] using stays
  next unheld =>
    unfold createSpan
    split
    · exact .inl rfl
    next taken =>
    unfold State.refusesCreation at taken
    split at taken
    · cases taken
    next room =>
    refine .inr (.inr ⟨c, hc, nonzero, fun q hq same => ?_, not_le.mp room, free taken, rfl⟩)
    simpa [same] using List.find?_eq_none.mp unheld q hq

theorem DirectoryLaw.of_directory {s t : State} (h : t.directory = s.directory) (law : DirectoryLaw s) : DirectoryLaw t :=
  law.of_shrinks (.of_core (core_of_directory h))

theorem PortLaw.of_directory {s t : State} (h : t.directory = s.directory) (law : PortLaw s) : PortLaw t :=
  law.of_shrinks (.of_core (core_of_directory h))

theorem PoolLaw.of_directory {s t : State} (h : t.directory = s.directory) (law : PoolLaw s) : PoolLaw t :=
  law.of_shrinks (.of_core (core_of_directory h))

section Put

variable (b : SpanFields) {s : State} (law : DirectoryLaw s)
include law

theorem directoryLaw_actSpanPut : DirectoryLaw (actSpanPut b s).1 := by
  rcases actSpanPut_cases b s with same | ⟨c, r, hc, hr, -, edited⟩ | ⟨c, hc, nonzero, new, room, -, created⟩
  · exact law.of_directory same
  · refine .of_directory edited (law.modifySpan (fun _ _ => edited_id ..) (fun _ _ _ => ?_))
    exact inRange_edited hc (law.fields r hr) _
  · refine .of_directory created (law.entered new room ?_)
    have width := b.identifier.isLt
    exact .of_fields hc ⟨Nat.one_le_iff_ne_zero.mpr nonzero, by simp only [createdSpan]; omega⟩ rfl rfl rfl rfl

theorem portLaw_actSpanPut (ports : PortLaw s) : PortLaw (actSpanPut b s).1 := by
  have nonzero {c : CheckedFields} (hc : checkedFields b = some c) : c.position ≠ 0 := by
    obtain ⟨ranges, carries⟩ := checkedFields_eq_some hc
    have := ranges.position.1
    rw [carries.position]
    omega
  rcases actSpanPut_cases b s with same | ⟨c, r, hc, hr, port, edited⟩ | ⟨c, hc, -, -, -, unbound, created⟩
  · exact ports.of_directory same
  · obtain ⟨bank, position⟩ := edited_port r c (SpanClamp.clamped (SpanClamp.carried b)) b.clearFlags
    refine .of_directory edited ?_
    rcases port with ⟨ownBank, ownPosition⟩ | unbound
    · refine ports.modifySpan (fun q hq same => ?_)
      rw [eq_of_id_eq law hq hr same, bank, position]
      exact ⟨ownBank.symm, ownPosition.symm⟩
    · refine ports.move law hr ?_ ?_
      · rw [position]
        exact nonzero hc
      · rw [bank, position]
        exact unbound
  · exact .of_directory created (ports.entered (nonzero hc) unbound)

theorem poolLaw_actSpanPut (pool : PoolLaw s) : PoolLaw (actSpanPut b s).1 := by
  rcases actSpanPut_cases b s with same | ⟨c, r, hc, hr, -, edited⟩ | ⟨c, -, -, -, -, -, created⟩
  · exact pool.of_directory same
  · refine .of_directory edited (pool.modifySpan law (fun q hq same => ?_))
    rw [eq_of_id_eq law hq hr same, edited_landmarks]
    exact ⟨pool.lists r hr, Nat.le_add_right ..⟩
  · exact .of_directory created (pool.entered rfl)

end Put

/-! ### Landmark lists (R29, R32, R33) -/

/-- Entries may follow the last of a list that is in order exactly where the joined list is in order. -/
theorem mayFollow_iff {l : List Landmark} (ordered : InOrder l) (marks : List Landmark) :
    mayFollow l.getLast? marks = true ↔ InOrder (l ++ marks) := by
  induction marks generalizing l with
  | nil => simpa [mayFollow] using ordered
  | cons m rest ih =>
    have joined : l ++ m :: rest = (l ++ [m]) ++ rest := by simp
    have last : (l ++ [m]).getLast? = some m := by simp
    have snoc : InOrder (l ++ [m]) ↔ ∀ a ∈ l, a.distance < m.distance ∧ a.kind ≠ .farEnd := by
      rw [InOrder, List.pairwise_append]
      exact ⟨fun ⟨_, _, below⟩ a ha => below a ha m List.mem_cons_self,
        fun below => ⟨ordered, by simp, fun a ha b hb => List.mem_singleton.mp hb ▸ below a ha⟩⟩
    have step : mayFollow l.getLast? (m :: rest) = true ↔ InOrder (l ++ [m]) ∧ mayFollow (some m) rest = true := by
      rw [snoc]
      rcases List.eq_nil_or_concat l with rfl | ⟨init, p, rfl⟩
      · simp [mayFollow]
      · rw [InOrder, List.concat_eq_append, List.pairwise_append] at ordered
        obtain ⟨-, -, below⟩ := ordered
        have belowLast (a : Landmark) (ha : a ∈ init) : a.distance < p.distance ∧ a.kind ≠ .farEnd :=
          below a ha p (by simp)
        rw [List.concat_eq_append, List.getLast?_concat]
        simp only [mayFollow, Bool.and_eq_true, bne_iff_ne, decide_eq_true_eq, List.mem_append, List.mem_singleton, or_imp,
          forall_and, forall_eq]
        constructor
        · rintro ⟨⟨kind, distance⟩, follows⟩
          exact ⟨⟨⟨fun a ha => (belowLast a ha).1.trans distance, distance⟩, fun a ha => (belowLast a ha).2, kind⟩, follows⟩
        · rintro ⟨⟨⟨-, distance⟩, -, kind⟩, follows⟩
          exact ⟨⟨kind, distance⟩, follows⟩
    rw [step, joined]
    constructor
    · rintro ⟨inOrder, follows⟩
      exact (ih inOrder).mp (last ▸ follows)
    · intro all
      have inOrder : InOrder (l ++ [m]) := (List.pairwise_append.mp all).1
      exact ⟨inOrder, last ▸ (ih inOrder).mpr all⟩

theorem shapeLandmark_distance (m : Landmark) : (shapeLandmark m).distance = m.distance := by
  unfold shapeLandmark
  split <;> rfl

theorem shapeLandmark_kind (m : Landmark) : (shapeLandmark m).kind = m.kind := by
  unfold shapeLandmark
  split <;> rfl

/-- What shaping writes of an entry is not what the order of a list reads. -/
theorem inOrder_shaped {l marks : List Landmark} (h : InOrder (l ++ marks)) : InOrder (l ++ marks.map shapeLandmark) := by
  obtain ⟨first, second, across⟩ := List.pairwise_append.mp h
  refine List.pairwise_append.mpr ⟨first, List.pairwise_map.mpr ?_, fun a ha b hb => ?_⟩
  · exact second.imp (fun h => by simpa only [shapeLandmark_distance, shapeLandmark_kind] using h)
  · obtain ⟨m, hm, rfl⟩ := List.mem_map.mp hb
    rw [shapeLandmark_distance]
    exact across a ha m hm

/-! ### The learned list is a landmark list (R135) -/

theorem learnedLandmark_kind_ne (e : Event) : (learnedLandmark e).kind ≠ .farEnd := by
  unfold learnedLandmark
  split
  · simp
  · dsimp only
    split <;> simp

theorem length_dropDuplicates_le (l : List Landmark) : (dropDuplicates l).length ≤ l.length := by
  induction l with
  | nil => simp [dropDuplicates]
  | cons m rest ih =>
    unfold dropDuplicates
    split
    · simp
    next n tail same =>
      rw [same] at ih
      simp only [List.length_cons] at ih ⊢
      split <;> simp only [List.length_cons] <;> omega

/-- The list that a learn proposes, before it is cut at the end distance (R135, steps 1 to 4). -/
def proposedList (events : List Event) : List Landmark := dropDuplicates ((keptOf events).map learnedLandmark)

theorem learnedList_eq (x : Extraction) :
    learnedList x = (((proposedList x.events).filter (fun m => m.distance < x.endDistance)).map shapeLandmark) ++
      [{ distance := x.endDistance, kind := .farEnd, loss := 0, height := 0 }] := rfl

theorem length_learnedList_le (x : Extraction) : (learnedList x).length ≤ 32 := by
  have kept : (keptOf x.events).length ≤ 31 := by
    rw [keptOf, length_sortBy, List.length_take]
    exact Nat.min_le_left ..
  have proposed : (proposedList x.events).length ≤ (keptOf x.events).length :=
    (length_dropDuplicates_le _).trans_eq (List.length_map _)
  have short := (List.filter_sublist (p := fun m : Landmark => m.distance < x.endDistance)
    (l := proposedList x.events)).length_le
  rw [learnedList_eq, List.length_append, List.length_map, List.length_singleton]
  omega

theorem pairwise_proposedList (events : List Event) :
    (proposedList events).Pairwise (fun a b => a.distance < b.distance) := by
  refine (dropDuplicates_spec (List.pairwise_map.mpr ?_)).1
  refine (keptEvents_keptOf events).order.imp (fun h => ?_)
  rw [distance_learnedLandmark, distance_learnedLandmark]
  omega

theorem listLaw_learnedList (x : Extraction) : ListLaw (learnedList x) := by
  have kinds : ∀ m ∈ proposedList x.events, m.kind ≠ .farEnd := by
    intro m hm
    obtain ⟨e, -, rfl⟩ := List.mem_map.mp (mem_of_mem_dropDuplicates hm)
    exact learnedLandmark_kind_ne e
  refine ⟨length_learnedList_le x, ?_⟩
  rw [learnedList_eq, List.pairwise_append]
  refine ⟨List.pairwise_map.mpr ?_, by simp, fun a ha b hb => ?_⟩
  · refine ((pairwise_proposedList x.events).filter _).imp_of_mem (fun {a b} ha hb h => ?_)
    rw [shapeLandmark_distance, shapeLandmark_distance, shapeLandmark_kind]
    exact ⟨h, kinds a (List.mem_of_mem_filter ha)⟩
  · obtain ⟨m, hm, rfl⟩ := List.mem_map.mp ha
    rw [List.mem_singleton.mp hb, shapeLandmark_distance, shapeLandmark_kind]
    obtain ⟨mem, short⟩ := List.mem_filter.mp hm
    exact ⟨by simpa using short, kinds m mem⟩

/-! ### MARKS_APPEND and MARKS_CLEAR -/

/-- The entries may join the tail of the span's list: they may follow its last entry, and the list and the pool have room
(R32, steps 6 to 8). -/
structure MayJoin (s : State) (r : SpanRecord) (marks : List Landmark) : Prop where
  follows : mayFollow r.landmarks.getLast? marks = true
  short   : r.landmarks.length + marks.length ≤ 32
  room    : marks.length ≤ s.poolFree

theorem mayJoin_of_not_refused {s : State} {r : SpanRecord} {marks : List Landmark} (h : s.refusesMarks r marks = none) :
    MayJoin s r marks := by
  unfold State.refusesMarks at h
  split at h
  · cases h
  next follows =>
  split at h
  · cases h
  next short =>
  split at h
  · cases h
  next room => exact ⟨by simpa using follows, not_lt.mp short, not_lt.mp room⟩

/-- What MARKS_APPEND does to the state: nothing, or entries that may join the tail of a span's list join it. -/
theorem actMarksAppend_cases (body : List Byte) (s : State) :
    (actMarksAppend body s).1 = s ∨ ∃ (r : SpanRecord) (marks : List Landmark), r ∈ s.spans ∧ MayJoin s r marks ∧
      (actMarksAppend body s).1 =
        s.modifySpan r.id (fun _ => r.withList (r.landmarks ++ marks.map shapeLandmark)) := by
  unfold actMarksAppend
  split
  case h_2 => exact .inl rfl
  unfold actMarks
  split
  · exact .inl rfl
  split
  · exact .inl rfl
  next r found =>
  split
  · exact .inl rfl
  split
  · exact .inl rfl
  next marks _ =>
  unfold appendMarks
  split
  · exact .inl rfl
  next taken => exact .inr ⟨r, marks, (findSpan_some found).1, mayJoin_of_not_refused taken, rfl⟩

theorem actMarksClear_cases (id : U16) (s : State) :
    (actMarksClear id s).1 = s ∨
    ∃ r ∈ s.spans, (actMarksClear id s).1 = s.modifySpan r.id (fun _ => r.withList []) := by
  unfold actMarksClear
  split
  · exact .inl rfl
  split
  · exact .inl rfl
  next r found =>
  split
  · exact .inl rfl
  split
  · exact .inl rfl
  · exact .inr ⟨r, (findSpan_some found).1, rfl⟩

section Lists

variable {s : State} (law : DirectoryLaw s) {r : SpanRecord} (hr : r ∈ s.spans) (list : List Landmark)
include law hr

theorem DirectoryLaw.withList : DirectoryLaw (s.modifySpan r.id (fun _ => r.withList list)) := by
  refine law.modifySpan (fun _ _ => rfl) (fun _ _ _ => ?_)
  have ranges := law.fields r hr
  exact ⟨ranges.id, ranges.position, ranges.interval, ranges.phase, ranges.clamped⟩

theorem PortLaw.withList (ports : PortLaw s) : PortLaw (s.modifySpan r.id (fun _ => r.withList list)) :=
  ports.modifySpan (fun q hq same => by rw [eq_of_id_eq law hq hr same]; exact ⟨rfl, rfl⟩)

theorem PoolLaw.withList (pool : PoolLaw s) (lawful : ListLaw list)
    (fits : list.length ≤ r.landmarks.length + s.poolFree) :
    PoolLaw (s.modifySpan r.id (fun _ => r.withList list)) :=
  pool.modifySpan law (fun q hq same => by rw [eq_of_id_eq law hq hr same]; exact ⟨lawful, fits⟩)

end Lists

/-- A list with entries at its tail that may join it is a landmark list. -/
theorem MayJoin.listLaw {s : State} {r : SpanRecord} {marks : List Landmark} (joins : MayJoin s r marks)
    (lawful : ListLaw r.landmarks) : ListLaw (r.landmarks ++ marks.map shapeLandmark) := by
  refine ⟨?_, inOrder_shaped ((mayFollow_iff lawful.ordered marks).mp joins.follows)⟩
  rw [List.length_append, List.length_map]
  exact joins.short

theorem MayJoin.fits {s : State} {r : SpanRecord} {marks : List Landmark} (joins : MayJoin s r marks) :
    (r.landmarks ++ marks.map shapeLandmark).length ≤ r.landmarks.length + s.poolFree := by
  rw [List.length_append, List.length_map]
  exact Nat.add_le_add_left joins.room _

/-! ### A learned list adopted (R40) -/

theorem core_writeOutcome (s : State) (id : Nat) (o : LastOutcome) (d : Option Nat) : (s.writeOutcome id o d).core = s.core :=
  core_modifySpan s id (fun _ => rfl)

theorem DirectoryLaw.adopt {s : State} (law : DirectoryLaw s) (id : Nat) (list : List Landmark) :
    DirectoryLaw (s.modifySpan id (SpanRecord.adopt list)) := by
  refine law.modifySpan (fun _ same => same) (fun r hr _ => ?_)
  have ranges := law.fields r hr
  exact ⟨ranges.id, ranges.position, ranges.interval, ranges.phase, ranges.clamped⟩

theorem PortLaw.adopt {s : State} (law : PortLaw s) (id : Nat) (list : List Landmark) :
    PortLaw (s.modifySpan id (SpanRecord.adopt list)) := law.modifySpan (fun _ _ _ => ⟨rfl, rfl⟩)

theorem poolFree_of_core {s t : State} (h : t.core = s.core) : t.poolFree = s.poolFree := by
  rw [State.poolFree, map_spans_of_core h (fun r => r.landmarks.length) (fun _ => rfl), State.poolFree]

theorem PoolLaw.adopt {s : State} (directory : DirectoryLaw s) (law : PoolLaw s) (id : Nat) {list : List Landmark}
    (lawful : ListLaw list) (fits : list.length ≤ s.poolFree) : PoolLaw (s.modifySpan id (SpanRecord.adopt list)) :=
  law.modifySpan directory (fun _ _ _ => ⟨lawful, fits.trans (Nat.le_add_left ..)⟩)

/-! ### The laws read the directory and hold at a reset -/

theorem reads_of_directory {P : State → Prop} (h : ∀ s t : State, t.directory = s.directory → P s → P t) :
    Reads [.directory] P := fun s t same => h s t (same .directory (by simp))

theorem directoryLaw_reset : HoldsAtReset DirectoryLaw := fun _ _ _ => ⟨.nil, Nat.zero_le _, by rintro _ ⟨⟩⟩

theorem portLaw_reset : HoldsAtReset PortLaw := fun _ _ _ => ⟨.nil, by rintro _ ⟨⟩⟩

theorem poolLaw_reset : HoldsAtReset PoolLaw := fun _ _ _ => ⟨by rintro _ ⟨⟩, Nat.zero_le _⟩

/-! ### The steps -/

theorem step_keeps_directoryLaw {s t : State} (law : DirectoryLaw s) (ran : step s = .next t) : DirectoryLaw t := by
  refine directory_step_keeps (reads_of_directory (fun _ _ => .of_directory)) directoryLaw_reset (fun _ _ => .of_shrinks)
    (fun b u hu => directoryLaw_actSpanPut b hu) (fun body u hu => ?append) (fun id u hu => ?clear)
    (fun u id x _ hu => (hu.of_shrinks (.of_core (core_writeOutcome ..))).adopt id _) law ran
  case append =>
    rcases actMarksAppend_cases body u with same | ⟨r, marks, hr, -, joined⟩
    · rwa [same]
    · rw [joined]
      exact hu.withList hr _
  case clear =>
    rcases actMarksClear_cases id u with same | ⟨r, hr, cleared⟩
    · rwa [same]
    · rw [cleared]
      exact hu.withList hr _

theorem step_keeps_portLaw {s t : State} (law : DirectoryLaw s) (ports : PortLaw s) (ran : step s = .next t) :
    PortLaw t := by
  refine (directory_step_keeps (P := fun u => DirectoryLaw u ∧ PortLaw u)
    (reads_of_directory (fun _ _ same hu => ⟨hu.1.of_directory same, hu.2.of_directory same⟩))
    (fun u straps inhibit => ⟨directoryLaw_reset u straps inhibit, portLaw_reset u straps inhibit⟩)
    (fun _ _ shrinks hu => ⟨hu.1.of_shrinks shrinks, hu.2.of_shrinks shrinks⟩)
    (fun b u hu => ⟨directoryLaw_actSpanPut b hu.1, portLaw_actSpanPut b hu.1 hu.2⟩)
    (fun body u hu => ?append) (fun id u hu => ?clear) (fun u id x _ hu => ?adopt) ⟨law, ports⟩ ran).2
  case append =>
    rcases actMarksAppend_cases body u with same | ⟨r, marks, hr, -, joined⟩
    · rwa [same]
    · rw [joined]
      exact ⟨hu.1.withList hr _, hu.2.withList hu.1 hr _⟩
  case clear =>
    rcases actMarksClear_cases id u with same | ⟨r, hr, cleared⟩
    · rwa [same]
    · rw [cleared]
      exact ⟨hu.1.withList hr _, hu.2.withList hu.1 hr _⟩
  case adopt =>
    have written := Shrinks.of_core (core_writeOutcome u id .clean (some x.endDistance))
    exact ⟨(hu.1.of_shrinks written).adopt id _, (hu.2.of_shrinks written).adopt id _⟩

theorem step_keeps_poolLaw {s t : State} (law : DirectoryLaw s) (pool : PoolLaw s) (ran : step s = .next t) : PoolLaw t := by
  refine (directory_step_keeps (P := fun u => DirectoryLaw u ∧ PoolLaw u)
    (reads_of_directory (fun _ _ same hu => ⟨hu.1.of_directory same, hu.2.of_directory same⟩))
    (fun u straps inhibit => ⟨directoryLaw_reset u straps inhibit, poolLaw_reset u straps inhibit⟩)
    (fun _ _ shrinks hu => ⟨hu.1.of_shrinks shrinks, hu.2.of_shrinks shrinks⟩)
    (fun b u hu => ⟨directoryLaw_actSpanPut b hu.1, poolLaw_actSpanPut b hu.1 hu.2⟩)
    (fun body u hu => ?append) (fun id u hu => ?clear) (fun u id x fits hu => ?adopt) ⟨law, pool⟩ ran).2
  case append =>
    rcases actMarksAppend_cases body u with same | ⟨r, marks, hr, joins, joined⟩
    · rwa [same]
    · rw [joined]
      exact ⟨hu.1.withList hr _, hu.2.withList hu.1 hr _ (joins.listLaw (hu.2.lists r hr)) joins.fits⟩
  case clear =>
    rcases actMarksClear_cases id u with same | ⟨r, hr, cleared⟩
    · rwa [same]
    · rw [cleared]
      exact ⟨hu.1.withList hr _, hu.2.withList hu.1 hr _ ⟨by simp, .nil⟩ (Nat.zero_le _)⟩
  case adopt =>
    have core := core_writeOutcome u id .clean (some x.endDistance)
    have directory := hu.1.of_shrinks (.of_core core)
    exact ⟨directory.adopt id _,
      (hu.2.of_shrinks (.of_core core)).adopt directory id (listLaw_learnedList x) (by rwa [poolFree_of_core core])⟩

end Sys2Proof.Machine

namespace Sys2Proof

open Machine in
/-- Settles O17: the law of the directory, and the port law with it, by what each command does to the directory. -/
theorem everyStepKeepsTheDirectoryLaw : Obligations.EveryStepKeepsTheDirectoryLaw := by
  unfold Obligations.EveryStepKeepsTheDirectoryLaw
  exact fun s t law ran => ⟨step_keeps_directoryLaw law ran, fun ports => step_keeps_portLaw law ports ran⟩

open Machine in
/-- Settles O19: entries that join a list and lists that are adopted fit the list law and the pool. -/
theorem everyStepKeepsThePoolLaw : Obligations.EveryStepKeepsThePoolLaw := by
  unfold Obligations.EveryStepKeepsThePoolLaw
  exact fun s t law pool ran => step_keeps_poolLaw law pool ran

end Sys2Proof
end

section
/-! PROOFS. The link law over a step, and the statements about the link interface. -/

namespace Sys2Proof.Machine

/-! ### The link law -/

theorem reads_linkLaw : Reads [.link] LinkLaw := by
  intro s t same law
  have link : t.link = s.link := same .link (by simp)
  exact ⟨by rw [link]; exact law.states, by rw [link]; exact law.buffer, by rw [link]; exact law.note⟩

theorem linkLaw_reset : HoldsAtReset LinkLaw := fun _ _ _ => ⟨.inl ⟨rfl, rfl⟩, rfl, rfl⟩

theorem actAttentionSet_requestBuffer (span condition unit : Byte) (s : State) :
    (actAttentionSet span condition unit s).1.link.requestBuffer = s.link.requestBuffer := by
  unfold actAttentionSet
  split <;> rfl

theorem link_notMem_requestParts {i : Instr} (h : ∀ a b c, i ≠ .attentionSet a b c) : Part.link ∉ requestParts i := by
  cases i
  case attentionSet a b c => exact absurd rfl (h a b c)
  all_goals exact of_decide_eq_true rfl

/-- No act writes the request buffer: one writes the enables, and the others leave the link. -/
theorem act_requestBuffer {i : Instr} {n : Nat} {act : State → State × Reply} (h : requestAct i = some (n, act)) (s : State) :
    (act s).1.link.requestBuffer = s.link.requestBuffer := by
  by_cases sets : ∃ a b c, i = .attentionSet a b c
  · obtain ⟨a, b, c, rfl⟩ := sets
    cases h
    exact actAttentionSet_requestBuffer ..
  · simp only [not_exists] at sets
    exact congrArg Link.requestBuffer ((act_frame h s).same .link (link_notMem_requestParts sets))

theorem linkLaw_respond {s : State} (buffer : s.link.requestBuffer = []) (n : Nat) (r : Reply) : LinkLaw (s.respond n r) :=
  ⟨.inr ⟨rfl, rfl⟩, buffer, rfl⟩

theorem linkLaw_ignorePeriod {s : State} (law : LinkLaw s) (n : Nat) : LinkLaw (s.ignorePeriod n) :=
  ⟨law.states, law.buffer, law.note⟩

/-- A request leaves its response waiting, and no byte of a frame behind. -/
theorem linkLaw_exchange {s : State} (law : LinkLaw s) (n : Nat) {act : State → State × Reply}
    (buffer : (act s.discardPending).1.link.requestBuffer = s.discardPending.link.requestBuffer) :
    LinkLaw (s.exchange n act) := by
  unfold State.exchange
  split
  · exact linkLaw_respond (buffer.trans law.buffer) ..
  · exact linkLaw_ignorePeriod law n

theorem linkLaw_frameRefused {s t : State} (law : LinkLaw s) {frame : List Byte}
    (ran : exec (.frameRefused frame) s = .next t) : LinkLaw t := by
  change execFrameRefused frame s = .next t at ran
  unfold execFrameRefused at ran
  split at ran
  · cases ran
    exact law
  split at ran <;> cases ran
  · exact linkLaw_exchange law _ rfl
  · exact law

/-- A read of the whole frame leaves the link idle, and a shorter one leaves the response waiting. -/
theorem linkLaw_read {s : State} (law : LinkLaw s) (n : Nat) : LinkLaw { s with link := s.link.read n } := by
  unfold Link.read
  split
  next => exact ⟨law.states, law.buffer, law.note⟩
  next r waiting =>
    split
    · exact ⟨.inl ⟨rfl, rfl⟩, law.buffer, law.note⟩
    · exact ⟨.inr ⟨rfl, by rw [waiting]; rfl⟩, law.buffer, law.note⟩

theorem linkLaw_readPeriod {s t : State} (law : LinkLaw s) {n : Nat} (ran : exec (.readPeriod n) s = .next t) :
    LinkLaw t := by
  change execReadPeriod n s = .next t at ran
  unfold execReadPeriod at ran
  split at ran
  · cases ran
    exact linkLaw_ignorePeriod law n
  split at ran <;> cases ran
  · exact law
  · exact linkLaw_read law n

theorem linkLaw_exec {i : Instr} {s t : State} (law : LinkLaw s) (ran : exec i s = .next t) : LinkLaw t := by
  match kind : requestAct i with
  | some (n, act) =>
    rw [exec_of_requestAct kind] at ran
    cases ran
    exact linkLaw_exchange law n (act_requestBuffer kind _)
  | none =>
    have event (notReset : ∀ straps inhibit, i ≠ .powerOn straps inhibit ∧ i ≠ .resetPin straps inhibit)
        (free : Part.apart (eventParts i) [.link] = true) : LinkLaw t :=
      reads_linkLaw.of_frame (exec_event_frame kind notReset ran) free law
    cases i
    case frameRefused => exact linkLaw_frameRefused law ran
    case readPeriod => exact linkLaw_readPeriod law ran
    case ignoredPeriod n =>
      cases ran
      exact linkLaw_ignorePeriod law n
    case powerOn => cases ran; exact linkLaw_reset ..
    case resetPin => cases ran; exact linkLaw_reset ..
    all_goals first | cases kind; done | exact event (by simp) rfl

end Sys2Proof.Machine

namespace Sys2Proof

open Machine in
/-- Settles O14: a request ends with its response waiting, a read ends with it waiting or consumed, and nothing else
reaches the link. -/
theorem everyStepKeepsTheLinkLaw : Obligations.EveryStepKeepsTheLinkLaw := by
  intro s t law ran
  rcases step_cases ran with ⟨i, rest, -, ran⟩ | ⟨-, rfl⟩
  · exact linkLaw_exec (s := s.withPending rest) ⟨law.states, law.buffer, law.note⟩ ran
  · exact ⟨law.states, law.buffer, law.note⟩

end Sys2Proof
end

section
/-! PROOFS. The step, the frame checks, the reading of request frames, refusals, READY and ATTN, the resets, and the events
that the part is not waiting for. -/

namespace Sys2Proof.Machine

/-! ### The frame checks (R186) -/

section FrameChecks

variable {code hi lo : Byte} {rest : List Byte}

theorem checkFrame_of_short {frame : List Byte} (short : frame.length < 3) : checkFrame frame = .refused .frameShort := by
  match frame with
  | [] => rfl
  | [_] => rfl
  | [_, _] => rfl
  | _ :: _ :: _ :: _ => simp only [List.length_cons] at short; omega

theorem checkFrame_of_none (unnamed : requestRow code = none) :
    checkFrame (code :: hi :: lo :: rest) = .refused .badRequest := by
  simp only [checkFrame, unnamed]

variable {row : RequestRow} (named : requestRow code = some row)
include named

theorem checkFrame_of_long (long : 512 < 256 * hi.toNat + lo.toNat) :
    checkFrame (code :: hi :: lo :: rest) = .refused .badRequest := by
  simp only [checkFrame, named, join16_toNat, gt_iff_lt, if_pos long]

theorem checkFrame_of_cut (fits : 256 * hi.toNat + lo.toNat ≤ 512) (cut : rest.length < 256 * hi.toNat + lo.toNat) :
    checkFrame (code :: hi :: lo :: rest) = .refused .frameShort := by
  simp only [checkFrame, named, join16_toNat, gt_iff_lt, if_neg (Nat.not_lt.mpr fits), if_pos cut]

theorem checkFrame_of_length_ne (fits : 256 * hi.toNat + lo.toNat ≤ 512)
    (whole : 256 * hi.toNat + lo.toNat ≤ rest.length) {m : Nat} (fixed : row.body = .fixed m)
    (differs : m ≠ 256 * hi.toNat + lo.toNat) : checkFrame (code :: hi :: lo :: rest) = .refused .badField := by
  have wrong : ¬(row.body = .fixed (256 * hi.toNat + lo.toNat) ∨ row.body = .counted) := by simp [fixed, differs]
  simp only [checkFrame, named, join16_toNat, gt_iff_lt, if_neg (Nat.not_lt.mpr fits), if_neg (Nat.not_lt.mpr whole),
    if_neg wrong]

end FrameChecks

/-- A frame that a check refuses is answered with that refusal. -/
theorem frameRefused_turnsAway {frame : List Byte} {s : State} {status : Status} (ready : s.ready = true)
    (request : frame.headD 0 ≠ 0) (refused : checkFrame frame = .refused status) :
    TurnsAway (.frameRefused frame) s status := by
  have called : exec (.frameRefused frame) s = .next (s.exchange frame.length (fun t => (t, Reply.refusal status))) := by
    change execFrameRefused frame s = _
    rw [execFrameRefused, if_neg request, refused]
  exact turnsAway_of_act ready called rfl

/-! ### Reading a request frame -/

/-- Every request is carried as a row of the request table says. -/
theorem carriage (i : Instr) : Laws.Carriage.Statement i := by
  cases i
  case spanPut b => exact Laws.Carriage.spanPut b
  case spanGet id => exact Laws.Carriage.spanGet id
  case spanByPort bank position => exact Laws.Carriage.spanByPort bank position
  case spanNext id => exact Laws.Carriage.spanNext id
  case spanHold id => exact Laws.Carriage.spanHold id
  case spanResume id => exact Laws.Carriage.spanResume id
  case spanRetire id => exact Laws.Carriage.spanRetire id
  case spanLearn id => exact Laws.Carriage.spanLearn id
  case marksAppend body => exact Laws.Carriage.marksAppend body
  case marksRead id start => exact Laws.Carriage.marksRead id start
  case marksClear id => exact Laws.Carriage.marksClear id
  case testNow id => exact Laws.Carriage.testNow id
  case testCancel id => exact Laws.Carriage.testCancel id
  case condGet tag => exact Laws.Carriage.condGet tag
  case condNext id tag => exact Laws.Carriage.condNext id tag
  case condAck tag => exact Laws.Carriage.condAck tag
  case condRetire tag => exact Laws.Carriage.condRetire tag
  case severitySet b => exact Laws.Carriage.severitySet b
  case profileSet b => exact Laws.Carriage.profileSet b
  case profileGet number => exact Laws.Carriage.profileGet number
  case clockSet time => exact Laws.Carriage.clockSet time
  case windowSet o c => exact Laws.Carriage.windowSet o c
  case classSet cls weight preemptible => exact Laws.Carriage.classSet cls weight preemptible
  case guardSet overload live => exact Laws.Carriage.guardSet overload live
  case coilSet bank length groupIndex => exact Laws.Carriage.coilSet bank length groupIndex
  case bankRestore bank sense => exact Laws.Carriage.bankRestore bank sense
  case statusGet => exact Laws.Carriage.statusGet
  case changesRead => exact Laws.Carriage.changesRead
  case attentionSet span condition unit => exact Laws.Carriage.attentionSet span condition unit
  case restart => exact Laws.Carriage.restart
  all_goals exact Laws.Carriage.ofNone rfl

/-- A 2-byte field read back from its two bytes. -/
def respelled16 (x : U16) : U16 := join16 (byte (x.toNat / 256)) (byte x.toNat)

/-- A 4-byte field read back from its four bytes. -/
def respelled32 (x : U32) : U32 :=
  join32 (byte (x.toNat / 16777216)) (byte (x.toNat / 65536)) (byte (x.toNat / 256)) (byte x.toNat)

@[simp] theorem respelled16_eq (x : U16) : respelled16 x = x := join16_split16 x

@[simp] theorem respelled32_eq (x : U32) : respelled32 x = x := join32_split32 x

/-- What the body of a request spells: the request with each number field read back from its bytes. -/
def respelled (sense : Sense) : Instr → Instr
  | .spanPut b =>
    .spanPut { b with
      identifier := respelled16 b.identifier, groupIndex := respelled16 b.groupIndex
      launchOffset := respelled16 b.launchOffset, attenuation := respelled16 b.attenuation
      lossThreshold := respelled16 b.lossThreshold, driftThreshold := respelled16 b.driftThreshold
      bendMargin := respelled16 b.bendMargin, matchTolerance := respelled16 b.matchTolerance }
  | .spanGet x => .spanGet (respelled16 x)
  | .spanNext x => .spanNext (respelled16 x)
  | .spanHold x => .spanHold (respelled16 x)
  | .spanResume x => .spanResume (respelled16 x)
  | .spanRetire x => .spanRetire (respelled16 x)
  | .spanLearn x => .spanLearn (respelled16 x)
  | .marksClear x => .marksClear (respelled16 x)
  | .testNow x => .testNow (respelled16 x)
  | .testCancel x => .testCancel (respelled16 x)
  | .condGet x => .condGet (respelled16 x)
  | .condAck x => .condAck (respelled16 x)
  | .condRetire x => .condRetire (respelled16 x)
  | .marksRead id start => .marksRead (respelled16 id) start
  | .condNext id tag => .condNext (respelled16 id) (respelled16 tag)
  | .profileSet b =>
    .profileSet { b with
      pointCount := respelled16 b.pointCount, reflectiveThreshold := respelled16 b.reflectiveThreshold
      endMargin := respelled16 b.endMargin }
  | .clockSet t => .clockSet (respelled32 t)
  | .windowSet o c => .windowSet (respelled32 o) (respelled32 c)
  | .guardSet overload live => .guardSet (respelled16 overload) (respelled16 live)
  | .coilSet bank length groupIndex => .coilSet bank (respelled32 length) (respelled16 groupIndex)
  | .bankRestore bank _ => .bankRestore bank sense
  | i => i

theorem respelled_eq {i : Instr} {sense : Sense} (sensed : ∀ b e, i = .bankRestore b e → e = sense) :
    respelled sense i = i := by
  cases i
  case bankRestore bank reported => rw [sensed bank reported rfl, respelled]
  all_goals simp only [respelled, respelled16_eq, respelled32_eq]

theorem parseRequest_requestBody {i : Instr} {code : Nat} {body : List Byte} (sense : Sense)
    (carried : requestBody i = some (code, body)) : parseRequest sense (byte code) body = some (respelled sense i) := by
  cases i <;> cases carried <;> rfl

theorem code_lt_of_row : ∀ row ∈ requestRows, row.code < 256 := by decide

/-- A well-formed request is read back from its frame, its number fields from their bytes. -/
theorem decodeFrame_encodeFrame {i : Instr} {frame : List Byte} (sense : Sense) (wellFormed : i.wellFormed = true)
    (encoded : encodeFrame i = some frame) : decodeFrame sense frame = some (respelled sense i) := by
  obtain ⟨⟨code, body⟩, carried, rfl⟩ := Option.map_eq_some_iff.mp encoded
  obtain ⟨row, mem, names, nonzero, short, fits⟩ := carriage i wellFormed code body carried
  have whole : (byte code).toNat = code := by
    rw [byte_toNat, Nat.mod_eq_of_lt (names ▸ code_lt_of_row row mem)]
  have request : byte code ≠ 0 := fun zero => nonzero (by rw [← whole, zero]; rfl)
  rw [decodeFrame_of_row sense (requestRow_of_mem mem (names.trans whole.symm)) request short fits]
  exact parseRequest_requestBody sense carried

/-! ### Refusals (R190) -/

/-- What an act answers: it takes the request, or it refuses it and leaves the state. -/
def TakesOrRefuses (s : State) (p : State × Reply) : Prop :=
  p.2.status.taken = true ∨ ∃ status, p = (s, Reply.refusal status)

theorem takesOrRefuses_takenStatus (s u : State) (replaced : Bool) (body : List Byte) :
    TakesOrRefuses s (u, { status := takenStatus replaced, body := body }) := by
  cases replaced <;> exact .inl rfl

theorem takesOrRefuses_record (s : State) (found : Option SpanRecord) : TakesOrRefuses s (s, recordReply found) := by
  cases found with
  | none => exact .inr ⟨.notFound, rfl⟩
  | some r => exact .inl rfl

theorem takesOrRefuses_condition (s : State) (found : Option Condition) :
    TakesOrRefuses s (s, s.conditionReply found) := by
  cases found with
  | none => exact .inr ⟨.notFound, rfl⟩
  | some c => exact .inl rfl

theorem actSpanPut_takesOrRefuses (b : SpanFields) (s : State) : TakesOrRefuses s (actSpanPut b s) := by
  have edits (r : SpanRecord) (c : CheckedFields) : TakesOrRefuses s (editSpan s r c b) := by
    unfold editSpan
    split
    · exact .inr ⟨_, rfl⟩
    · exact takesOrRefuses_takenStatus ..
  have creates (c : CheckedFields) : TakesOrRefuses s (createSpan s c b) := by
    unfold createSpan
    split
    · exact .inr ⟨_, rfl⟩
    · exact takesOrRefuses_takenStatus ..
  unfold actSpanPut
  repeat' split
  · exact .inr ⟨_, rfl⟩
  · exact .inr ⟨_, rfl⟩
  · exact edits ..
  · exact creates ..

theorem actSpanRetire_takesOrRefuses (id : U16) (s : State) : TakesOrRefuses s (actSpanRetire id s) := by
  unfold actSpanRetire retireSpan
  repeat' split
  · exact .inr ⟨_, rfl⟩
  all_goals exact .inl rfl

theorem actMarksAppend_takesOrRefuses (body : List Byte) (s : State) : TakesOrRefuses s (actMarksAppend body s) := by
  have appends (r : SpanRecord) (marks : List Landmark) : TakesOrRefuses s (appendMarks s r marks) := by
    unfold appendMarks
    split
    · exact .inr ⟨_, rfl⟩
    · exact takesOrRefuses_takenStatus ..
  unfold actMarksAppend actMarks
  repeat' split
  case h_2 => exact appends ..
  all_goals exact .inr ⟨_, rfl⟩

theorem act_takesOrRefuses {i : Instr} {n : Nat} {act : State → State × Reply} (h : requestAct i = some (n, act))
    (s : State) : TakesOrRefuses s (act s) := by
  cases i <;> cases h
  case spanPut => exact actSpanPut_takesOrRefuses ..
  case spanRetire => exact actSpanRetire_takesOrRefuses ..
  case marksAppend => exact actMarksAppend_takesOrRefuses ..
  case spanNext => exact takesOrRefuses_record ..
  case severitySet | guardSet => exact takesOrRefuses_takenStatus ..
  case statusGet | changesRead | restart => exact .inl rfl
  case spanGet =>
    unfold actSpanGet
    split
    · exact .inr ⟨_, rfl⟩
    · exact takesOrRefuses_record ..
  case condGet =>
    unfold actCondGet
    split
    · exact .inr ⟨_, rfl⟩
    · exact takesOrRefuses_condition ..
  case condNext =>
    unfold actCondNext
    split
    · exact .inr ⟨_, rfl⟩
    · exact takesOrRefuses_condition ..
  case spanByPort =>
    unfold actSpanByPort
    repeat' split
    case isFalse.isFalse => exact takesOrRefuses_record ..
    all_goals exact .inr ⟨_, rfl⟩
  case profileSet =>
    unfold actProfileSet
    repeat' split
    case isFalse => exact takesOrRefuses_takenStatus ..
    all_goals exact .inr ⟨_, rfl⟩
  case classSet =>
    unfold actClassSet
    split
    · exact takesOrRefuses_takenStatus ..
    · exact .inr ⟨_, rfl⟩
  case coilSet =>
    unfold actCoilSet
    repeat' split
    case isFalse => exact takesOrRefuses_takenStatus ..
    all_goals exact .inr ⟨_, rfl⟩
  case spanHold =>
    unfold actSpanHold
    repeat' split
    all_goals first | exact .inr ⟨_, rfl⟩ | exact .inl rfl
  case spanResume =>
    unfold actSpanResume
    repeat' split
    all_goals first | exact .inr ⟨_, rfl⟩ | exact .inl rfl
  case spanLearn =>
    unfold actSpanLearn
    repeat' split
    all_goals first | exact .inr ⟨_, rfl⟩ | exact .inl rfl
  case marksRead =>
    unfold actMarksRead
    repeat' split
    all_goals first | exact .inr ⟨_, rfl⟩ | exact .inl rfl
  case marksClear =>
    unfold actMarksClear
    repeat' split
    all_goals first | exact .inr ⟨_, rfl⟩ | exact .inl rfl
  case testNow =>
    unfold actTestNow
    repeat' split
    all_goals first | exact .inr ⟨_, rfl⟩ | exact .inl rfl
  case testCancel =>
    unfold actTestCancel
    repeat' split
    all_goals first | exact .inr ⟨_, rfl⟩ | exact .inl rfl
  case condAck =>
    unfold actCondAck
    repeat' split
    all_goals first | exact .inr ⟨_, rfl⟩ | exact .inl rfl
  case condRetire =>
    unfold actCondRetire
    repeat' split
    all_goals first | exact .inr ⟨_, rfl⟩ | exact .inl rfl
  case profileGet =>
    unfold actProfileGet
    repeat' split
    all_goals first | exact .inr ⟨_, rfl⟩ | exact .inl rfl
  case clockSet =>
    unfold actClockSet
    repeat' split
    all_goals first | exact .inr ⟨_, rfl⟩ | exact .inl rfl
  case windowSet =>
    unfold actWindowSet
    repeat' split
    all_goals first | exact .inr ⟨_, rfl⟩ | exact .inl rfl
  case bankRestore =>
    unfold actBankRestore
    repeat' split
    all_goals first | exact .inr ⟨_, rfl⟩ | exact .inl rfl
  case attentionSet =>
    unfold actAttentionSet
    repeat' split
    all_goals first | exact .inr ⟨_, rfl⟩ | exact .inl rfl

/-! ### READY low (R185), and the events that the part is not waiting for -/

theorem exec_of_not_ready {i : Instr} {s : State} (low : s.ready = false) (request : (requestBody i).isSome = true) :
    ∃ n, exec i s = .next (s.ignorePeriod n) := by
  rw [← isSome_requestAct] at request
  obtain ⟨⟨n, act⟩, kind⟩ := Option.isSome_iff_exists.mp request
  exact ⟨n, by rw [exec_of_requestAct kind, exchange_of_not_ready low]⟩

theorem takeHead_of_standing {s : State} (standing : s.engine.current.isSome = true ∨ s.engine.queue = []) :
    s.takeHead = s := by
  rcases standing with current | empty
  · exact takeHead_of_current current
  · exact takeHead_of_empty empty

theorem marked_iff (s : State) :
    s.directory.any Entry.marked = true ↔ (∃ r ∈ s.spans, r.mark = true) ∨ ∃ i, Entry.vacated i ∈ s.directory := by
  simp only [List.any_eq_true, State.spans, List.mem_filterMap]
  constructor
  · rintro ⟨entry | i, mem, marked⟩
    · exact .inl ⟨entry, ⟨_, mem, rfl⟩, marked⟩
    · exact .inr ⟨i, mem⟩
  · rintro (⟨r, ⟨entry, mem, holds⟩, marked⟩ | ⟨i, mem⟩)
    · cases entry <;> cases holds
      exact ⟨_, mem, marked⟩
    · exact ⟨_, mem, rfl⟩

end Sys2Proof.Machine

namespace Sys2Proof

open Machine in
/-- Settles O1: by the definition of a step. -/
theorem stepRunsTheFrontCommand : Obligations.StepRunsTheFrontCommand := fun _ _ _ => rfl

open Machine in
/-- Settles O2: each check refuses the frames that pass the checks before it. -/
theorem frameChecksGoInOrder : Obligations.FrameChecksGoInOrder := by
  intro frame s ready request
  refine ⟨fun short => frameRefused_turnsAway ready request (checkFrame_of_short short), ?_⟩
  rintro code hi lo rest rfl
  refine ⟨fun unnamed => frameRefused_turnsAway ready request (checkFrame_of_none (requestRow_eq_none unnamed)), ?_⟩
  intro row mem names
  have named : requestRow code = some row := requestRow_of_mem mem names
  exact ⟨fun long => frameRefused_turnsAway ready request (checkFrame_of_long named long),
    fun fits cut => frameRefused_turnsAway ready request (checkFrame_of_cut named fits cut),
    fun fits whole m fixed differs =>
      frameRefused_turnsAway ready request (checkFrame_of_length_ne named fits whole fixed differs)⟩

open Machine in
/-- Settles O3: the code and the length find the request's row, and the row's layout reads the fields back. -/
theorem requestFramesRoundTrip : Obligations.RequestFramesRoundTrip := by
  intro i sense frame wellFormed sensed encoded
  rw [decodeFrame_encodeFrame sense wellFormed encoded, respelled_eq sensed]

open Machine in
/-- Settles O4: an act takes the request, or leaves the state as the discard left it and answers with no body. -/
theorem refusedRequestsChangeNoRecord : Obligations.RefusedRequestsChangeNoRecord := by
  intro i s ready request
  rw [← isSome_requestAct] at request
  obtain ⟨⟨n, act⟩, kind⟩ := Option.isSome_iff_exists.mp request
  have called := exec_of_requestAct kind s
  rw [exchange_of_ready ready] at called
  refine ⟨_, _, called, rfl, fun refused => ?_⟩
  rcases act_takesOrRefuses kind s.discardPending with taken | ⟨status, same⟩
  · exact absurd (taken.symm.trans refused) (by decide)
  · rw [same]
    exact ⟨answered_respond (r := Reply.refusal status) rfl, keepsBut_respond (by simp) (.refl ..)⟩

open Machine in
/-- Settles O5: an exchange and a read test READY first, and an ignored period never does. -/
theorem nothingPassesWhileReadyIsLow : Obligations.NothingPassesWhileReadyIsLow := by
  refine ⟨?_, fun _ _ => rfl⟩
  rintro i s low (request | ⟨n, rfl⟩)
  · exact exec_of_not_ready low request
  · refine ⟨n, ?_⟩
    change execReadPeriod n s = _
    rw [execReadPeriod, if_pos low]
    rfl

open Machine in
/-- Settles O6: a marked directory entry is a marked span or a vacated report. -/
theorem attnFollowsTheEnabledMarks : Obligations.AttnFollowsTheEnabledMarks := by
  intro s
  rw [attn_eq_true_iff, marked_iff]

open Machine in
/-- Settles O12: both resets are `resetTo`, whose fields are the reset values. -/
theorem resetsLeaveTheResetValues : Obligations.ResetsLeaveTheResetValues := by
  intro i straps inhibit s which
  have runs : exec i s = .next (s.resetTo straps inhibit) := by rcases which with rfl | rfl <;> rfl
  have channels (ch : Letter) : (s.resetTo straps inhibit).channels.get ch = channelAtReset inhibit := by cases ch <;> rfl
  have now : (s.resetTo straps inhibit).now = 0 := rfl
  have timeBase : (s.resetTo straps inhibit).timeBase = timeBaseAtReset := rfl
  have bankA : (s.resetTo straps inhibit).banks.a = presentBankAtReset := rfl
  refine ⟨_, runs, rfl, now, rfl, rfl, rfl, rfl, rfl, rfl, rfl, rfl, rfl, ?_, rfl, rfl, rfl, rfl, rfl, rfl, rfl, rfl, channels,
    ?_, fun fitted => ?_, fun absent => ?_⟩
  · rw [timeBase, now, Nat.zero_add, timeBaseAtReset]
  · rw [bankA, now, Nat.zero_add, presentBankAtReset]
  · change (if straps.bankB then presentBankAtReset else absentBank) = presentBankAtReset
    rw [if_pos fitted]
  · have bank : (s.resetTo straps inhibit).banks.b = absentBank := by
      change (if straps.bankB then presentBankAtReset else absentBank) = absentBank
      rw [absent]
      rfl
    rw [bank]
    exact ⟨rfl, rfl, rfl, rfl, rfl, rfl, rfl⟩

open Machine in
/-- Settles O47: each event first looks at what it would be an event of. -/
theorem idleStepsAndUnawaitedEvents : Obligations.IdleStepsAndUnawaitedEvents := by
  refine ⟨fun _ => rfl, ?settle, ?guard, ?firing, ?released, ?completion, ?take⟩
  case settle =>
    intro l sense s still
    change execSettleCompletion l sense s = _
    rw [execSettleCompletion, still]
  case guard =>
    intro ch sum s unguarded
    change execGuardCompletion ch sum s = _
    unfold execGuardCompletion
    split
    next due f guarded => exact absurd guarded (unguarded due f)
    all_goals rfl
  case firing =>
    intro ch samples s unfired
    constructor
    · change execShotAccumulated ch samples s = _
      unfold execShotAccumulated
      split
      next stage f busy =>
        cases stage with
        | switching => rfl
        | guard due => rfl
        | firing1625 since => exact absurd busy (unfired since f).1
        | firing1310 since => exact absurd busy (unfired since f).2
      all_goals rfl
    · change execAcquisitionCompletion ch s = _
      unfold execAcquisitionCompletion
      split
      next since f busy => exact absurd busy (unfired since f).1
      next since f busy => exact absurd busy (unfired since f).2
      all_goals rfl
  case released =>
    intro s low
    change execInhibitReleased s = _
    rw [execInhibitReleased, low]
    rfl
  case completion =>
    intro s idle
    change execAnalysisCompletion s = _
    rw [execAnalysisCompletion, idle]
  case take =>
    intro s standing
    exact congrArg Host.Outcome.next (takeHead_of_standing standing)

end Sys2Proof
end

section
/-! PROOFS. The settings law over a step, one part of the state at a time. -/

namespace Sys2Proof.Machine

/-! ### The law, part by part -/

def ProfilesInRange (s : State) : Prop := ∀ n : Fin 8, (s.profiles.get n).InRange

def ThresholdsInRange (s : State) : Prop :=
  1000 ≤ s.thresholds.live ∧ s.thresholds.live ≤ s.thresholds.overload ∧ s.thresholds.overload ≤ 24082

def SeverityInRange (s : State) : Prop := ∀ k : FaultKind, s.table.severity.of k ≤ 3

def TimesInRange (s : State) : Prop :=
  s.timeBase.timeOfDay < 86400 ∧ s.timeBase.openTime < 86400 ∧ s.timeBase.closeTime < 86400 ∧
    s.timeBase.windowNumber < 65536

/-- The class settings and the coil records lie in their ranges. -/
structure UnitsInRange (s : State) : Prop where
  classes : ∀ c : Fin 4, (s.sched.classes.get c).InRange
  coils   : ∀ l : Letter, (s.banks.get l).coil.InRange

theorem settingsLaw_iff (s : State) :
    SettingsLaw s ↔
      ProfilesInRange s ∧ ThresholdsInRange s ∧ SeverityInRange s ∧ TimesInRange s ∧ UnitsInRange s := by
  constructor
  · intro law
    exact ⟨law.profiles, law.thresholds, law.severity, law.times, law.classes, law.coils⟩
  · rintro ⟨profiles, thresholds, severity, times, units⟩
    exact ⟨profiles, thresholds, severity, times, units.classes, units.coils⟩

/-- A law that reads one part is kept by every command that leaves the part, and by every other one by itself. -/
theorem reads_part {p : Part} {P : State → Prop} (h : ∀ s t : State, p.Same s t → P s → P t) : Reads [p] P :=
  fun s t same => h s t (same p (by simp))

/-! ### Profiles -/

theorem reads_profilesInRange : Reads [.profiles] ProfilesInRange :=
  reads_part fun s t (same : t.profiles = s.profiles) h => by rw [ProfilesInRange, same]; exact h

theorem inRange_default (n : Fin 8) : (defaultProfiles.get n).InRange := by
  have inRange (p : Profile) (h : p.pulseCode ≤ 5 ∧ p.spacing ∈ [1, 2, 4, 8, 16, 32, 64] ∧
      (512 ≤ p.pointCount ∧ p.pointCount ≤ 16384 ∧ p.pointCount % 256 = 0) ∧ (6 ≤ p.shotExponent ∧ p.shotExponent ≤ 16) ∧
      (4 ≤ p.window ∧ p.window ≤ 64) ∧ (200 ≤ p.reflectiveThreshold ∧ p.reflectiveThreshold ≤ 6000) ∧
      (300 ≤ p.endMargin ∧ p.endMargin ≤ 3000)) : p.InRange := by
    obtain ⟨code, spacing, count, exponent, window, threshold, margin⟩ := h
    exact ⟨code, spacing, count, exponent, window, threshold, margin⟩
  refine inRange _ ?_
  revert n
  decide

theorem inRange_settled {b : ProfileFields} (code : b.pulseCode.toNat ≤ 5)
    (spacing : b.spacing.toNat ∈ [1, 2, 4, 8, 16, 32, 64]) : (carriedProfile b).settled.InRange := by
  refine ⟨code, spacing, ?count, clamp_mem (by decide) _, clamp_mem (by decide) _, clamp_mem (by decide) _,
    clamp_mem (by decide) _⟩
  obtain ⟨lower, upper⟩ := clamp_mem (show 512 ≤ 16384 by decide) (b.pointCount.toNat / 256 * 256)
  refine ⟨lower, upper, ?_⟩
  change clamp 512 16384 (b.pointCount.toNat / 256 * 256) % 256 = 0
  unfold clamp
  split
  · rfl
  split
  · rfl
  · exact Nat.mul_mod_left ..

/-- A profile table with one record replaced by one in range. -/
theorem ProfilesInRange.store {s : State} (h : ProfilesInRange s) {n : Fin 8} {p : Profile} (hp : p.InRange) :
    ProfilesInRange { s with profiles := s.profiles.set n p } := by
  intro k
  change ((s.profiles.set n p).get k).InRange
  by_cases same : k = n
  · rw [same, Octet.get_set_self]
    exact hp
  · rw [Octet.get_set_ne _ same]
    exact h k

theorem actProfileSet_profilesInRange {s : State} (h : ProfilesInRange s) (b : ProfileFields) :
    ProfilesInRange (actProfileSet b s).1 := by
  unfold actProfileSet
  split
  · exact h
  split
  · exact h
  next fits =>
    rw [not_or, Nat.not_lt, Bool.not_eq_false] at fits
    exact h.store (inRange_settled fits.1 (List.contains_iff_mem.mp fits.2))

theorem step_keeps_profilesInRange {s t : State} (h : ProfilesInRange s) (ran : step s = .next t) : ProfilesInRange t := by
  refine step_keeps reads_profilesInRange rfl (fun _ _ _ => inRange_default) (fun i n act u kind hu => ?requests)
    (fun i u v touches => ?events) h ran
  case requests =>
    by_cases sets : ∃ b, i = .profileSet b
    · obtain ⟨b, rfl⟩ := sets
      cases kind
      exact actProfileSet_profilesInRange hu b
    · simp only [not_exists] at sets
      refine reads_profilesInRange.of_frame (act_frame kind u) ?_ hu
      cases i
      case profileSet b => exact absurd rfl (sets b)
      all_goals rfl
  case events => cases i <;> cases touches

/-! ### Thresholds -/

theorem reads_thresholdsInRange : Reads [.thresholds] ThresholdsInRange :=
  reads_part fun s t (same : t.thresholds = s.thresholds) h => by rw [ThresholdsInRange, same]; exact h

theorem thresholdsInRange_reset : HoldsAtReset ThresholdsInRange := by
  intro u straps inhibit
  change 1000 ≤ 9000 ∧ 9000 ≤ 20000 ∧ 20000 ≤ 24082
  decide

theorem step_keeps_thresholdsInRange {s t : State} (h : ThresholdsInRange s) (ran : step s = .next t) :
    ThresholdsInRange t := by
  have stored (overload live : U16) (u : State) : ThresholdsInRange (actGuardSet overload live u).1 := by
    obtain ⟨lower, upper⟩ := clamp_mem (show 1000 ≤ 24082 by decide) overload.toNat
    obtain ⟨lowerLive, -⟩ := clamp_mem (show 1000 ≤ 24082 by decide) live.toNat
    exact ⟨le_min lowerLive lower, min_le_right .., upper⟩
  refine step_keeps reads_thresholdsInRange rfl thresholdsInRange_reset (fun i n act u kind hu => ?requests)
    (fun i u v touches => ?events) h ran
  case requests =>
    by_cases sets : ∃ overload live, i = .guardSet overload live
    · obtain ⟨overload, live, rfl⟩ := sets
      cases kind
      exact stored overload live u
    · simp only [not_exists] at sets
      refine reads_thresholdsInRange.of_frame (act_frame kind u) ?_ hu
      cases i
      case guardSet overload live => exact absurd rfl (sets overload live)
      all_goals rfl
  case events => cases i <;> cases touches

/-! ### Severities -/

theorem severityInRange_of_eq {s t : State} (same : t.table.severity = s.table.severity) (h : SeverityInRange s) :
    SeverityInRange t := by
  rw [SeverityInRange, same]
  exact h

theorem reads_severityInRange : Reads [.table] SeverityInRange :=
  reads_part fun _ _ (same : _ = _) => severityInRange_of_eq (congrArg CondTable.severity same)

theorem create_severity (k : Folding) (r : Result) (f : Finding) : (k.create r f).table.severity = k.table.severity := by
  unfold Folding.create
  dsimp only
  repeat' split
  all_goals rfl

/-- What every folding step keeps, a result applied keeps. -/
theorem apply_keeps {P : Folding → Prop} {r : Result} {T : CondTable}
    (missed : P { table := { T with conditions := T.conditions.map (r.missUnpaired (r.pairs T.conditions)) }
                  excluded := (r.pairs T.conditions).map Candidate.tag, dropped := 0 })
    (taken : ∀ k f, P k → P (Folding.take r (r.pairs T.conditions) k f)) : P (T.apply r) := by
  have fold (l : List (Finding × Nat)) : ∀ k, P k → P (l.foldl (Folding.take r (r.pairs T.conditions)) k) := by
    induction l with
    | nil => exact fun _ hk => hk
    | cons f rest ih => exact fun k hk => ih _ (taken k f hk)
  exact fold _ _ missed

theorem take_keeps {P : Folding → Prop} {r : Result} {pairs : List Candidate} {k : Folding} {f : Finding × Nat}
    (hit : ∀ p ∈ pairs, P { k with table := k.table.modify p.tag (Condition.hit r.confirmCount r.window f.1) })
    (create : P (k.create r f.1)) : P (Folding.take r pairs k f) := by
  unfold Folding.take
  split
  next p found => exact hit p (List.mem_of_find?_eq_some found)
  next => exact create

theorem apply_severity (T : CondTable) (r : Result) : (T.apply r).table.severity = T.severity :=
  apply_keeps (P := fun k => k.table.severity = T.severity) rfl fun _ _ hk =>
    take_keeps (P := fun k => k.table.severity = T.severity) (fun _ _ => hk) ((create_severity ..).trans hk)

/-- What a result does to the condition table: nothing; the open conditions of a span retired; or a result of a span that
exists applied, with the clear count that the input copied. -/
def TableAfter (s : State) (a : Analysis) (u : State) : Prop :=
  u.table = s.table ∨ (∃ id, u.table = (s.retireConditions id).table) ∨
    ∃ c r, a.input.subject = .span c ∧ r.clearCount = c.fields.clearCount ∧ (s.findSpan r.span).isSome = true ∧
      u.table = (s.table.apply r).table

theorem judgeSpan_table {s : State} {a : Analysis} {c : SpanCopy} (subject : a.input.subject = .span c) {id : Nat}
    (held : (s.findSpan id).isSome = true) (kind : TestKind) : TableAfter s a (s.judgeSpan id kind a c) := by
  have tested (x : Extraction) :
      TableAfter s a (if c.landmarks = [] then s.judgeBare id x else s.judgeBaseline id a.flight c x) := by
    split
    · exact .inl rfl
    · refine .inr (.inr ⟨c, ?result, subject, ?count, ?held, ?table⟩)
      case result =>
        exact resultOf s id c x
          (findingList a.flight.snapshot.guard c x ((a.flight.recorded.map Recorded.degraded).getD false))
      case count => rfl
      case held => exact held
      case table => rfl
  cases kind with
  | scheduled cls => exact tested _
  | demand => exact tested _
  | learn =>
    change TableAfter s a (s.judgeLearn id a.flight.work (extract a.input c))
    unfold State.judgeLearn State.adoptList
    dsimp only
    split
    · exact .inl ((endWithOutcome_frame s a.flight.work .noEnd).same .table (by decide))
    split
    · exact .inr (.inl ⟨id, rfl⟩)
    · exact .inl rfl

theorem dispose_table (s : State) (a : Analysis) : TableAfter s a (s.dispose a) := by
  unfold State.dispose
  split
  · split <;> exact .inl rfl
  split
  · exact .inl rfl
  next r found =>
    unfold State.disposeSpan
    split
    · exact .inr (.inl ⟨_, rfl⟩)
    split
    · exact .inl rfl
    split
    · exact .inl ((endWithOutcome_frame s a.flight.work .stale).same .table (by decide))
    split
    next c subject => exact judgeSpan_table subject (by rw [found]; rfl) _
    next => exact .inl rfl

theorem dispose_severity (s : State) (a : Analysis) : (s.dispose a).table.severity = s.table.severity := by
  rcases dispose_table s a with same | ⟨id, retired⟩ | ⟨c, r, -, -, -, applied⟩
  · rw [same]
  · rw [retired]
    rfl
  · rw [applied, apply_severity]

theorem actSeveritySet_severityInRange (b : SeverityFields) (s : State) : SeverityInRange (actSeveritySet b s).1 := by
  intro k
  cases k <;> exact min_le_right ..

theorem act_severity {i : Instr} {n : Nat} {act : State → State × Reply} (h : requestAct i = some (n, act))
    (notSet : ∀ b, i ≠ .severitySet b) (s : State) : (act s).1.table.severity = s.table.severity := by
  have frame := act_frame h s
  have untouched (apart : Part.table ∉ requestParts i) : (act s).1.table.severity = s.table.severity :=
    congrArg CondTable.severity (frame.same .table apart)
  cases i
  case severitySet b => exact absurd rfl (notSet b)
  case spanRetire id =>
    cases h
    change (actSpanRetire id s).1.table.severity = s.table.severity
    unfold actSpanRetire retireSpan
    repeat' split
    any_goals rfl
    next p _ _ => exact (congrArg CondTable.severity ((removeJob_frame s id.toNat p).same .table (by decide)) :)
  case condAck tag =>
    cases h
    change (actCondAck tag s).1.table.severity = s.table.severity
    unfold actCondAck
    repeat' split
    all_goals rfl
  case condRetire tag =>
    cases h
    change (actCondRetire tag s).1.table.severity = s.table.severity
    unfold actCondRetire
    repeat' split
    all_goals rfl
  case changesRead | restart => cases h; rfl
  all_goals exact untouched (of_decide_eq_true rfl)

theorem severityInRange_reset : HoldsAtReset SeverityInRange := by
  intro u straps inhibit k
  change defaultSeverity.of k ≤ 3
  cases k <;> decide

theorem step_keeps_severityInRange {s t : State} (h : SeverityInRange s) (ran : step s = .next t) : SeverityInRange t := by
  refine step_keeps reads_severityInRange rfl severityInRange_reset (fun i n act u kind hu => ?requests)
    (fun i u v touches ran hu => ?events) h ran
  case requests =>
    by_cases sets : ∃ b, i = .severitySet b
    · obtain ⟨b, rfl⟩ := sets
      cases kind
      exact actSeveritySet_severityInRange b u
    · simp only [not_exists] at sets
      exact severityInRange_of_eq (act_severity kind sets u) hu
  case events =>
    cases i <;> cases touches
    case analysisCompletion =>
      change execAnalysisCompletion u = .next v at ran
      unfold execAnalysisCompletion at ran
      split at ran <;> cases ran
      · exact hu
      next a _ =>
        refine severityInRange_of_eq (Eq.trans ?ended (dispose_severity (u.reach a.due) a)) hu
        exact congrArg CondTable.severity ((endAnalysis_frame ((u.reach a.due).dispose a) a).same .table (by decide))

/-! ### The time base -/

theorem timesInRange_of_eq {s t : State} (same : t.timeBase = s.timeBase) (h : TimesInRange s) : TimesInRange t := by
  rw [TimesInRange, same]
  exact h

theorem timeBase_openWindow (s : State) (held : List Nat) :
    (s.openWindow held).timeBase =
      { s.timeBase with windowOpen := true, windowNumber := wrapSucc s.timeBase.windowNumber } := by
  have passed : KeepsBut [.draws, .sched, .buffers, .banks, .channels, .directory, .now] s.raiseWindow (s.openWindow held) :=
    (((drawn_frame _).mono (by decide)).trans (((setAside_frame ..).mono (by decide)).trans
      ((dispatchPass_frame ..).mono (by decide)))).trans ((putBack_frame ..).mono (by decide))
  exact passed.same .timeBase (by decide)

theorem timeBase_closeWindow (s : State) : s.closeWindow.timeBase = { s.timeBase with windowOpen := false } :=
  (closeAtChannels_frame (({ s with timeBase := { s.timeBase with windowOpen := false } } : State).discardQueued)).same
    .timeBase (by decide)

/-- A window event leaves the times of the time base in range. -/
theorem timesInRange_retestWindow {s : State} (h : TimesInRange s) (held : List Nat) :
    TimesInRange (s.retestWindow held) := by
  obtain ⟨day, opens, closes, number⟩ := h
  refine retestWindow_keeps (fun _ => ?opened) (fun _ => ?closed) ⟨day, opens, closes, number⟩
  case opened =>
    rw [TimesInRange, timeBase_openWindow]
    exact ⟨day, opens, closes, Nat.mod_lt _ (by decide)⟩
  case closed =>
    rw [TimesInRange, timeBase_closeWindow]
    exact ⟨day, opens, closes, number⟩

theorem timesInRange_reset : HoldsAtReset TimesInRange := by
  intro u straps inhibit
  change 0 < 86400 ∧ 0 < 86400 ∧ 0 < 86400 ∧ 0 < 65536
  decide

theorem step_keeps_timesInRange {s t : State} (h : TimesInRange s) (ran : step s = .next t) : TimesInRange t := by
  have reads : Reads [.timeBase] TimesInRange := reads_part fun _ _ same => timesInRange_of_eq same
  refine step_keeps reads rfl timesInRange_reset (fun i n act u kind hu => ?requests) (fun i u v touches ran hu => ?events) h ran
  case requests =>
    have untouched (apart : Part.timeBase ∉ requestParts i) : TimesInRange (act u).1 :=
      timesInRange_of_eq ((act_frame kind u).same .timeBase apart) hu
    obtain ⟨day, opens, closes, number⟩ := hu
    cases i
    case clockSet time =>
      cases kind
      change TimesInRange (actClockSet time u).1
      unfold actClockSet
      split
      next => exact ⟨day, opens, closes, number⟩
      next fits =>
        have set : TimesInRange
            { u with timeBase := { u.timeBase with timeOfDay := time.toNat, nextAdvance := u.now + secondNs } } :=
          ⟨Nat.lt_succ_of_le (Nat.not_lt.mp fits), opens, closes, number⟩
        exact timesInRange_retestWindow set []
    case windowSet o c =>
      cases kind
      change TimesInRange (actWindowSet o c u).1
      unfold actWindowSet
      split
      next => exact ⟨day, opens, closes, number⟩
      next fits =>
        rw [not_or, Nat.not_lt, Nat.not_lt] at fits
        have set : TimesInRange
            { u with timeBase := { u.timeBase with openTime := o.toNat, closeTime := c.toNat } } :=
          ⟨day, Nat.lt_succ_of_le fits.1, Nat.lt_succ_of_le fits.2, number⟩
        exact timesInRange_retestWindow set []
    all_goals exact untouched (of_decide_eq_true rfl)
  case events =>
    cases i <;> cases touches
    case timeAdvance =>
      cases ran
      obtain ⟨day, opens, closes, number⟩ := hu
      have advanced : TimesInRange
          { u.reach u.timeBase.nextAdvance with timeBase := u.timeBase.advanced } :=
        ⟨Nat.mod_lt (u.timeBase.timeOfDay + 1) (by decide), opens, closes, number⟩
      exact timesInRange_retestWindow advanced _

/-! ### Classes and coils -/

theorem UnitsInRange.of_eq {s t : State} (h : UnitsInRange s) (coils : t.banks.map Bank.coil = s.banks.map Bank.coil)
    (classes : t.sched.classes = s.sched.classes) : UnitsInRange t := by
  refine ⟨fun c => by rw [classes]; exact h.classes c, fun l => ?_⟩
  rw [← Pair.get_map Bank.coil, coils, Pair.get_map]
  exact h.coils l

theorem UnitsInRange.of_soft {s t : State} (h : UnitsInRange s) (soft : Soft s t) : UnitsInRange t :=
  h.of_eq soft.coils soft.classes

/-- A scheduler with every class setting in its range. -/
def Scheduler.InRange (q : Scheduler) : Prop := ∀ c : Fin 4, (q.classes.get c).InRange

theorem Scheduler.InRange.reload {q : Scheduler} (h : q.InRange) : q.reload.InRange := by
  intro c
  change ((q.classes.map (fun c : ClassSetting => { c with credit := c.weight })).get c).InRange
  rw [Quad.get_map]
  exact ⟨(h c).1, Nat.le_refl _⟩

theorem Scheduler.InRange.set {q : Scheduler} (h : q.InRange) {c : Fin 4} {k : ClassSetting} (hk : k.InRange) :
    Scheduler.InRange { q with classes := q.classes.set c k } := by
  intro d
  change ((q.classes.set c k).get d).InRange
  by_cases same : d = c
  · rw [same, Quad.get_set_self]
    exact hk
  · rw [Quad.get_set_ne _ same]
    exact h d

theorem Scheduler.InRange.spend {q : Scheduler} (h : q.InRange) (c : Fin 4) : (q.spend c).InRange :=
  h.set ⟨(h c).1, (Nat.sub_le ..).trans (h c).2⟩

/-- The choice leaves every credit at most its weight. -/
theorem choose_inRange {s : State} (h : s.sched.InRange) (ch : Letter) : (s.choose ch).sched.InRange := by
  unfold State.choose
  split
  · exact h
  unfold State.weightedChoice
  dsimp only
  split
  · exact h.spend _
  split
  · exact h.reload.spend _
  · exact h

theorem unitsInRange_dispatchPass {s : State} (h : UnitsInRange s) (senses : Pair (Option Nat)) :
    UnitsInRange (s.dispatchPass senses) := by
  refine dispatchPass_keeps (fun u hu => hu.of_eq rfl rfl) (fun u n hu => hu.of_eq rfl rfl) (fun u ch hu => ?_)
    (fun u demand _ hu => hu.of_soft (soft_preemptFor ..)) h
  refine considerChannel_keeps (fun v j _ _ hv => ?_) hu
  have chosen : UnitsInRange { v with sched := (v.choose ch).sched } := ⟨choose_inRange hv.classes ch, hv.coils⟩
  exact chosen.of_soft (soft_dispatch ..)

theorem unitsInRange_retestWindow {s : State} (h : UnitsInRange s) (held : List Nat) :
    UnitsInRange (s.retestWindow held) := by
  refine retestWindow_keeps (fun _ => ?opened) (fun _ => h.of_soft (soft_closeWindow s)) h
  have raised : UnitsInRange (s.raiseWindow.drawn.setAside held) :=
    ⟨Scheduler.InRange.reload (q := s.sched) h.classes, h.coils⟩
  exact (unitsInRange_dispatchPass raised s.drawnSenses).of_eq rfl rfl

theorem actSpanPut_classes (b : SpanFields) (s : State) : (actSpanPut b s).1.sched.classes = s.sched.classes := by
  unfold actSpanPut editSpan createSpan
  repeat' split
  all_goals rfl

theorem actSpanHold_classes (id : U16) (s : State) : (actSpanHold id s).1.sched.classes = s.sched.classes := by
  unfold actSpanHold
  repeat' split
  all_goals rfl

theorem actSpanLearn_classes (id : U16) (s : State) : (actSpanLearn id s).1.sched.classes = s.sched.classes := by
  unfold actSpanLearn
  repeat' split
  all_goals rfl

theorem actTestNow_classes (id : U16) (s : State) : (actTestNow id s).1.sched.classes = s.sched.classes := by
  unfold actTestNow
  repeat' split
  all_goals rfl

theorem inRange_storedCoil (length groupIndex : Nat) : (storedCoil length groupIndex).InRange :=
  ⟨min_le_right .., clamp_mem (by decide) _⟩

theorem UnitsInRange.storeCoil {s : State} (h : UnitsInRange s) (l : Letter) {c : Coil} (hc : c.InRange) :
    UnitsInRange (s.storeCoil l c) := by
  refine ⟨fun d => ?_, fun k => ?_⟩
  · rw [storeCoil_sched]
    exact h.classes d
  · rw [storeCoil_banks]
    by_cases same : k = l
    · rw [same, Pair.get_set_self]
      exact hc
    · rw [Pair.get_set_ne _ same]
      exact h.coils k

theorem Channel.afterRead_activity (items : List Item) (l : Letter) (c : Channel) :
    (c.afterRead items l).activity = c.activity := by
  unfold Channel.afterRead
  split <;> rfl

theorem Bank.afterRead_coil (items : List Item) (l : Letter) (b : Bank) : (b.afterRead items l).coil = b.coil := by
  unfold Bank.afterRead
  split <;> rfl

theorem act_unitsInRange {i : Instr} {n : Nat} {act : State → State × Reply} (h : requestAct i = some (n, act)) {s : State}
    (hs : UnitsInRange s) : UnitsInRange (act s).1 := by
  have frame := act_frame h s
  have banksApart (apart : Part.banks ∉ requestParts i) (classes : (act s).1.sched.classes = s.sched.classes) :
      UnitsInRange (act s).1 := hs.of_eq (congrArg (Pair.map Bank.coil) (frame.same .banks apart)) classes
  cases i
  case spanPut b => cases h; exact banksApart (of_decide_eq_true rfl) (actSpanPut_classes b s)
  case spanHold id => cases h; exact banksApart (of_decide_eq_true rfl) (actSpanHold_classes id s)
  case spanLearn id => cases h; exact banksApart (of_decide_eq_true rfl) (actSpanLearn_classes id s)
  case testNow id => cases h; exact banksApart (of_decide_eq_true rfl) (actTestNow_classes id s)
  case spanRetire id =>
    cases h
    change UnitsInRange (actSpanRetire id s).1
    unfold actSpanRetire retireSpan
    repeat' split
    any_goals exact hs.of_eq rfl rfl
    next p _ _ => exact (hs.of_soft (soft_removeJob s id.toNat p)).of_eq rfl rfl
  case testCancel id =>
    cases h
    change UnitsInRange (actTestCancel id s).1
    unfold actTestCancel
    repeat' split
    all_goals first | exact hs | exact hs.of_soft (soft_cancelJob ..)
  case clockSet time =>
    cases h
    have set : UnitsInRange
        { s with timeBase := { s.timeBase with timeOfDay := time.toNat, nextAdvance := s.now + secondNs } } :=
      hs.of_eq rfl rfl
    change UnitsInRange (actClockSet time s).1
    unfold actClockSet
    split
    · exact hs
    · exact unitsInRange_retestWindow set []
  case windowSet o c =>
    cases h
    have set : UnitsInRange { s with timeBase := { s.timeBase with openTime := o.toNat, closeTime := c.toNat } } :=
      hs.of_eq rfl rfl
    change UnitsInRange (actWindowSet o c s).1
    unfold actWindowSet
    split
    · exact hs
    · exact unitsInRange_retestWindow set []
  case classSet cls weight preemptible =>
    cases h
    change UnitsInRange (actClassSet cls weight preemptible s).1
    unfold actClassSet
    split
    · exact ⟨Scheduler.InRange.set (q := s.sched) hs.classes ⟨min_le_right .., Nat.le_refl _⟩, hs.coils⟩
    · exact hs
  case coilSet bank length groupIndex =>
    cases h
    change UnitsInRange (actCoilSet bank length groupIndex s).1
    unfold actCoilSet
    repeat' split
    all_goals first | exact hs | exact hs.storeCoil _ (inRange_storedCoil ..)
  case bankRestore bank sense =>
    cases h
    change UnitsInRange (actBankRestore bank sense s).1
    unfold actBankRestore
    repeat' split
    all_goals first | exact hs | exact hs.of_soft (soft_restoreBank ..)
  case changesRead =>
    cases h
    exact hs.of_eq (congrArg₂ Pair.mk (Bank.afterRead_coil ..) (Bank.afterRead_coil ..)) rfl
  case restart =>
    cases h
    exact ⟨Scheduler.InRange.reload (q := s.sched) hs.classes, fun l => by cases l; exacts [hs.coils .A, hs.coils .B]⟩
  all_goals
    exact hs.of_eq (congrArg (Pair.map Bank.coil) (frame.same .banks (of_decide_eq_true rfl)))
      (congrArg Scheduler.classes (frame.same .sched (of_decide_eq_true rfl)))

/-! ### Events -/

theorem soft_firstDone (s : State) (ch : Letter) (f : Flight) : Soft s (s.firstDone ch f) := by
  unfold State.firstDone
  dsimp only
  split
  · exact .of_frame ((fillBuffer_frame ..).mono (by decide) |>.trans ((setChannel_frame ..).mono (by decide)))
      (l := [.buffers, .channels]) rfl
  · exact (soft_handOn ..).after ⟨rfl, rfl, rfl⟩

theorem soft_secondDone (s : State) (ch : Letter) (f : Flight) : Soft s (s.secondDone ch f) :=
  (soft_handOn ..).after ⟨rfl, rfl, rfl⟩

theorem soft_endAnalysis (s : State) (a : Analysis) : Soft s (s.endAnalysis a) :=
  (soft_takeHead _).after ⟨rfl, rfl, rfl⟩

theorem event_unitsInRange {i : Instr} {s t : State} (touches : Part.apart (eventParts i) [.sched, .banks] = false)
    (ran : exec i s = .next t) (hs : UnitsInRange s) : UnitsInRange t := by
  cases i <;> cases touches
  case inhibitAsserted =>
    have stops (u : State) (ch : Letter) (hu : UnitsInRange u) : UnitsInRange (u.inhibitChannel ch) :=
      hu.of_soft (soft_inhibitChannel u ch)
    change execInhibitAsserted s = .next t at ran
    unfold execInhibitAsserted at ran
    dsimp only at ran
    split at ran <;> cases ran
    · exact eitherOrder_keeps (fun u hu => hu.of_soft (soft_drawn u)) stops (hs.of_eq rfl rfl)
    · exact stops _ _ (stops _ _ (hs.of_eq rfl rfl))
  case inhibitReleased =>
    change execInhibitReleased s = .next t at ran
    unfold execInhibitReleased at ran
    split at ran <;> cases ran
    · exact hs.of_eq rfl rfl
    · exact hs
  case timeAdvance =>
    cases ran
    exact unitsInRange_retestWindow (s := { s.reach _ with timeBase := _ }) (hs.of_eq rfl rfl) _
  case settleCompletion l sense =>
    change execSettleCompletion l sense s = .next t at ran
    unfold execSettleCompletion at ran
    split at ran <;> cases ran
    · exact UnitsInRange.of_soft (s := s.reach _) (hs.of_eq rfl rfl) (soft_settle ..)
    · exact hs
  case guardCompletion ch sum =>
    change execGuardCompletion ch sum s = .next t at ran
    unfold execGuardCompletion at ran
    split at ran <;> cases ran
    · exact UnitsInRange.of_soft (s := s.reach _) (hs.of_eq rfl rfl) (soft_guardDone ..)
    all_goals exact hs
  case acquisitionCompletion ch =>
    change execAcquisitionCompletion ch s = .next t at ran
    unfold execAcquisitionCompletion at ran
    repeat' split at ran
    all_goals cases ran
    · exact UnitsInRange.of_soft (s := s.reach _) (hs.of_eq rfl rfl) (soft_firstDone ..)
    · exact hs
    · exact UnitsInRange.of_soft (s := s.reach _) (hs.of_eq rfl rfl) (soft_secondDone ..)
    all_goals exact hs
  case dispatchPass =>
    cases ran
    exact unitsInRange_dispatchPass hs _
  case analysisCompletion =>
    change execAnalysisCompletion s = .next t at ran
    unfold execAnalysisCompletion at ran
    split at ran <;> cases ran
    · exact hs
    next a _ =>
      have disposed : UnitsInRange ((s.reach a.due).dispose a) := by
        have frame := dispose_frame (s.reach a.due) a
        exact hs.of_eq (congrArg (Pair.map Bank.coil) (frame.same .banks (by decide)))
          (congrArg Scheduler.classes (frame.same .sched (by decide)))
      exact disposed.of_soft (soft_endAnalysis ..)

theorem unitsInRange_reset : HoldsAtReset UnitsInRange := by
  intro u straps inhibit
  refine ⟨?_, ?_⟩
  · change ∀ c : Fin 4, (defaultClasses.get c).weight ≤ 15 ∧ (defaultClasses.get c).credit ≤ (defaultClasses.get c).weight
    decide
  · have coil : (if straps.bankB then presentBankAtReset else absentBank).coil = ⟨0, 14680⟩ := by split <;> rfl
    have inRange : Coil.InRange ⟨0, 14680⟩ := ⟨by decide, by decide, by decide⟩
    intro l
    cases l
    · exact inRange
    · change Coil.InRange (if straps.bankB then presentBankAtReset else absentBank).coil
      rw [coil]
      exact inRange

theorem step_keeps_unitsInRange {s t : State} (h : UnitsInRange s) (ran : step s = .next t) : UnitsInRange t := by
  have reads : Reads [.sched, .banks] UnitsInRange := by
    intro u v same hu
    have sched : v.sched = u.sched := same .sched (by simp)
    have banks : v.banks = u.banks := same .banks (by simp)
    exact hu.of_eq (by rw [banks]) (by rw [sched])
  exact step_keeps reads rfl unitsInRange_reset (fun i n act u kind hu => act_unitsInRange kind hu)
    (fun i u v touches ran hu => event_unitsInRange touches ran hu) h ran

end Sys2Proof.Machine

namespace Sys2Proof

open Machine in
/-- Settles O15: the law is the conjunction of the ranges of five parts, each kept by itself. -/
theorem everyStepKeepsTheSettingsLaw : Obligations.EveryStepKeepsTheSettingsLaw := by
  intro s t law ran
  rw [settingsLaw_iff] at law ⊢
  obtain ⟨profiles, thresholds, severity, times, units⟩ := law
  exact ⟨step_keeps_profilesInRange profiles ran, step_keeps_thresholdsInRange thresholds ran,
    step_keeps_severityInRange severity ran, step_keeps_timesInRange times ran, step_keeps_unitsInRange units ran⟩

end Sys2Proof
end

section
/-! PROOFS. The bank law over a step: every operation but the taking of a bank leaves at most the holders that there were,
and a bank is taken only by a channel that held none, from no other channel. -/

namespace Sys2Proof.Machine

/-! ### Operations that give no bank a new holder -/

/-- From `s` to `t` no bank has a new holder, a channel that holds one stays busy, and a bank that goes out of service has
no holder. -/
structure Releases (s t : State) : Prop where
  holder  : ∀ l ch : Letter, (t.banks.get l).holder = some ch → (s.banks.get l).holder = some ch
  busy    : ∀ l ch : Letter, (t.banks.get l).holder = some ch → (s.channels.get ch).activity.isBusy = true →
    (t.channels.get ch).activity.isBusy = true
  service : ∀ l : Letter, (t.banks.get l).service = .outOfService →
    (s.banks.get l).service = .outOfService ∨ (t.banks.get l).holder = none

theorem Releases.refl (s : State) : Releases s s := ⟨fun _ _ h => h, fun _ _ _ h => h, fun _ h => .inl h⟩

theorem Releases.trans {s t u : State} (h : Releases s t) (k : Releases t u) : Releases s u := by
  refine ⟨fun l ch held => h.holder l ch (k.holder l ch held),
    fun l ch held busy => k.busy l ch held (h.busy l ch (k.holder l ch held) busy), fun l out => ?_⟩
  rcases k.service l out with before | free
  · refine (h.service l before).imp id (fun free => ?_)
    rcases held : (u.banks.get l).holder with _ | ch
    · rfl
    · rw [k.holder l ch held] at free
      cases free
  · exact .inr free

theorem Releases.after {s t u : State} (k : Releases t u) (h : Releases s t) : Releases s u := h.trans k

/-- Where the banks' holders and service states stand, and every busy channel stays busy. -/
theorem Releases.of_eq {s t : State} (holder : ∀ l, (t.banks.get l).holder = (s.banks.get l).holder)
    (service : ∀ l, (t.banks.get l).service = (s.banks.get l).service)
    (busy : ∀ ch, (s.channels.get ch).activity.isBusy = true → (t.channels.get ch).activity.isBusy = true) :
    Releases s t :=
  ⟨fun l _ held => (holder l).symm.trans held, fun _ ch _ => busy ch, fun l out => .inl ((service l).symm.trans out)⟩

theorem Releases.of_frame {l : List Part} {s t : State} (frame : KeepsBut l s t)
    (apart : Part.apart l [.banks, .channels] = true) : Releases s t := by
  have same (p : Part) (hp : p ∈ [Part.banks, .channels]) : p.Same s t :=
    frame.same p (fun hl => by have := List.all_eq_true.mp apart p hp; simp [hl] at this)
  have banks : t.banks = s.banks := same .banks (by simp)
  have channels : t.channels = s.channels := same .channels (by simp)
  exact .of_eq (fun _ => by rw [banks]) (fun _ => by rw [banks]) (fun _ => by rw [channels]; exact id)

theorem releases_setChannel (s : State) (ch : Letter) {c : Channel}
    (busy : (s.channels.get ch).activity.isBusy = true → c.activity.isBusy = true) : Releases s (s.setChannel ch c) := by
  refine .of_eq (fun _ => rfl) (fun _ => rfl) (fun k hk => ?_)
  change ((s.channels.set ch c).get k).activity.isBusy = true
  by_cases same : k = ch
  · subst same
    rw [Pair.get_set_self]
    exact busy hk
  · rw [Pair.get_set_ne _ same]
    exact hk

theorem releases_setBank (s : State) (l : Letter) {b : Bank} (holder : b.holder = none ∨ b.holder = (s.banks.get l).holder)
    (service : b.service = .outOfService → (s.banks.get l).service = .outOfService ∨ b.holder = none) :
    Releases s (s.setBank l b) := by
  have at_l : (s.setBank l b).banks.get l = b := Pair.get_set_self ..
  have other (k : Letter) (h : k ≠ l) : (s.setBank l b).banks.get k = s.banks.get k := Pair.get_set_ne _ h _
  refine ⟨fun k ch held => ?_, fun _ _ _ h => h, fun k out => ?_⟩
  · by_cases same : k = l
    · subst same
      rw [at_l] at held
      rcases holder with none | before
      · rw [none] at held
        cases held
      · exact before.symm.trans held
    · rwa [other k same] at held
  · by_cases same : k = l
    · subst same
      rw [at_l] at out ⊢
      exact service out
    · rw [other k same] at out
      exact .inl out

/-- A channel that gives up its job, with the bank that it held. -/
theorem Releases.of_givesUp {s t : State} {ch : Letter} {c : Channel}
    (channels : t.channels = s.channels.set ch c)
    (banks : ∀ l : Letter, t.banks.get l =
      if (s.banks.get l).holder = some ch then { s.banks.get l with holder := none } else s.banks.get l) :
    Releases s t := by
  have kept {l k : Letter} (held : (t.banks.get l).holder = some k) : k ≠ ch ∧ (s.banks.get l).holder = some k := by
    rw [banks] at held
    split at held
    next => cases held
    next other => exact ⟨fun same => other (same ▸ held), held⟩
  refine ⟨fun l k held => (kept held).2, fun l k held busy => ?_, fun l out => .inl ?_⟩
  · rw [channels, Pair.get_set_ne _ (kept held).1]
    exact busy
  · rw [banks] at out
    split at out <;> exact out

theorem releases_dropFlight (s : State) (ch : Letter) (f : Flight) (rest : Activity) :
    Releases s (s.dropFlight ch f rest) :=
  .of_givesUp (givesUp_dropFlight s ch f rest).channels (givesUp_dropFlight s ch f rest).banks

theorem releases_abortChannel (s : State) (ch : Letter) : Releases s (s.abortChannel ch) := by
  unfold State.abortChannel
  split
  · exact releases_dropFlight ..
  · exact .refl s
  · exact .refl s

theorem releases_handOn (s : State) (ch : Letter) (f : Flight) : Releases s (s.handOn ch f) :=
  .of_givesUp (handsOn_handOn s ch f).channels (handsOn_handOn s ch f).banks

theorem releases_settle (s : State) (l : Letter) (sense : Option Nat) : Releases s (s.settle l sense) := by
  have settled : Releases s (s.setBank l ((s.banks.get l).settled sense)) :=
    releases_setBank s l (.inr rfl) (fun out => .inl out)
  have faulted : Releases s (s.setBank l ((s.banks.get l).faulted sense)) :=
    releases_setBank s l (.inl rfl) (fun _ => .inr rfl)
  unfold State.settle
  dsimp only
  split
  · split
    · exact settled
    · exact faulted
  split
  · split
    · exact settled.trans (releases_setChannel _ _ (fun _ => rfl))
    · exact (faulted.trans (.of_frame (endWithOutcome_frame ..) rfl)).trans (releases_dropFlight ..)
  all_goals
    split
    · exact settled
    · exact faulted

theorem releases_started (s : State) (ch : Letter) (j : Job) : Releases s (s.started ch j) :=
  (releases_setChannel _ ch (fun _ => rfl)).after
    (.of_frame (((unqueue_frame s j).mono (by decide)).trans ((takeBuffers_frame ..).mono (by decide)))
      (l := [.sched, .buffers]) rfl)

theorem releases_cut1310 (s : State) (ch : Letter) (f : Flight) : Releases s (s.cut1310 ch f) := by
  unfold State.cut1310
  split
  · exact (releases_handOn ..).after (.of_frame (fillBuffer_frame ..) rfl)
  · exact (releases_handOn ..).after (.of_frame (free1310_frame ..) rfl)

theorem releases_closeAtChannel (s : State) (ch : Letter) : Releases s (s.closeAtChannel ch) := by
  have drops (stage : Stage) (f : Flight) : Releases s (s.drop1310 ch stage f) :=
    (releases_setChannel s ch (fun _ => rfl)).trans (.of_frame (free1310_frame ..) rfl)
  unfold State.closeAtChannel
  split
  · exact .refl s
  · exact .refl s
  · exact releases_cut1310 ..
  all_goals
    split
    · exact drops ..
    · exact .refl s

theorem releases_closeWindow (s : State) : Releases s s.closeWindow := by
  have discarded : Releases s (({ s with timeBase := { s.timeBase with windowOpen := false } } : State).discardQueued) :=
    .of_eq (fun _ => rfl) (fun _ => rfl) (fun _ h => h)
  have atChannels := closeAtChannels_keeps (P := Releases s)
    (fun u h => h.trans (.of_frame (drawn_frame u) rfl)) (fun u ch h => h.trans (releases_closeAtChannel u ch)) discarded
  exact atChannels.trans (.of_frame (callDispatch_frame _) rfl)

theorem releases_inhibitChannel (s : State) (ch : Letter) : Releases s (s.inhibitChannel ch) := by
  have marked (u : State) : Releases u (u.markChannel ch) := releases_setChannel u ch id
  unfold State.inhibitChannel
  split
  next idle => exact (releases_setChannel s ch (fun busy => by rw [idle] at busy; cases busy)).trans (marked _)
  next => exact ((releases_dropFlight ..).trans (marked _)).trans (.of_frame (returnJob_frame ..) rfl)
  next => exact .refl s

theorem releases_guardDone (s : State) (ch : Letter) (f : Flight) (level : Nat) : Releases s (s.guardDone ch f level) := by
  have starts (t : State) (g : Flight) : Releases t (t.startFiring ch g) := releases_setChannel t ch (fun _ => rfl)
  have found : Releases s (s.liveFound f.work) := .of_frame (liveFound_frame ..) rfl
  unfold State.guardDone
  split
  · exact Releases.trans (.of_frame (endWithOutcome_frame ..) rfl) (releases_dropFlight ..)
  split
  · unfold State.guardLive
    dsimp only
    split
    · exact (found.trans (.of_frame (free1310_frame ..) rfl)).trans (starts ..)
    · exact found.trans (starts ..)
  · exact Releases.trans (.of_frame (liveGone_frame ..) rfl) (starts ..)

theorem releases_firstDone (s : State) (ch : Letter) (f : Flight) : Releases s (s.firstDone ch f) := by
  have written : Releases s (s.writeTrace ch f .nm1625) := .of_frame (fillBuffer_frame ..) rfl
  unfold State.firstDone
  dsimp only
  split
  · exact written.trans (releases_setChannel _ ch (fun _ => rfl))
  · exact written.trans (releases_handOn ..)

theorem releases_secondDone (s : State) (ch : Letter) (f : Flight) : Releases s (s.secondDone ch f) :=
  Releases.trans (.of_frame (fillBuffer_frame ..) rfl) (releases_handOn ..)

theorem releases_removeJob (s : State) (id : Nat) (place : JobPlace) : Releases s (s.removeJob id place) := by
  cases place with
  | channel ch f => exact releases_abortChannel s ch
  | classQueue c => exact .of_eq (fun _ => rfl) (fun _ => rfl) (fun _ h => h)
  | demandQueue learn => exact .of_eq (fun _ => rfl) (fun _ => rfl) (fun _ h => h)
  | waiting f => exact .of_frame (leaveAnalysisQueue_frame ..) rfl
  | analysing a => exact .refl s

theorem releases_cancelJob (s : State) (id : Nat) (place : JobPlace) : Releases s (cancelJob s id place) := by
  have removed (p : JobPlace) (learn : Bool) : Releases s ((s.removeJob id p).writeCancelled id learn) :=
    (releases_removeJob s id p).trans (.of_frame (writeCancelled_frame ..) rfl)
  cases place with
  | analysing a =>
    unfold cancelJob
    dsimp only
    split
    · exact .refl s
    · exact Releases.trans (.of_frame (markCancelled_frame ..) rfl) (.of_frame (writeCancelled_frame ..) rfl)
  | _ => unfold cancelJob; exact removed ..

theorem releases_restoreBank (s : State) (l : Letter) (sense : Option Nat) : Releases s (s.restoreBank l sense) := by
  have called (u : State) : Releases u u.callDispatch := .of_frame (callDispatch_frame u) rfl
  unfold State.restoreBank
  dsimp only
  split
  · exact (called _).after ((releases_settle ..).after (releases_setBank s l (.inr rfl) nofun))
  · exact (called _).after (releases_setBank s l (.inr rfl) nofun)

theorem Bank.afterRead_holder (items : List Item) (l : Letter) (b : Bank) : (b.afterRead items l).holder = b.holder := by
  unfold Bank.afterRead
  split <;> rfl

theorem Bank.afterRead_service (items : List Item) (l : Letter) (b : Bank) : (b.afterRead items l).service = b.service := by
  unfold Bank.afterRead
  split <;> rfl

theorem releases_returnItems (s : State) (items : List Item) : Releases s (s.returnItems items) := by
  refine .of_eq (fun l => ?_) (fun l => ?_) (fun ch => ?_)
  · cases l <;> exact Bank.afterRead_holder ..
  · cases l <;> exact Bank.afterRead_service ..
  · cases ch
    · exact fun h => (congrArg Activity.isBusy (Channel.afterRead_activity items .A s.channels.a)).trans h
    · exact fun h => (congrArg Activity.isBusy (Channel.afterRead_activity items .B s.channels.b)).trans h

theorem releases_restarted (s : State) : Releases s s.restarted := by
  have free (l : Letter) : (s.restarted.banks.get l).holder = none := by cases l <;> rfl
  refine ⟨fun l ch held => ?_, fun l ch held => ?_, fun l _ => .inr (free l)⟩
  all_goals
    rw [free l] at held
    cases held

/-! ### The law -/

theorem BankLaw.of_releases {s t : State} (law : BankLaw s) (h : Releases s t) : BankLaw t := by
  refine ⟨?_, fun l ch held => h.busy l ch held (law.busy l ch (h.holder l ch held)), fun l out => ?_⟩
  · rcases held : t.banks.a.holder with _ | ch
    · exact .inl rfl
    · refine .inr (fun shared => ?_)
      have a : s.banks.a.holder = some ch := h.holder .A ch held
      have b : s.banks.b.holder = some ch := h.holder .B ch shared.symm
      rcases law.distinct with free | apart
      · rw [free] at a
        cases a
      · exact apart (a.trans b.symm)
  · rcases held : (t.banks.get l).holder with _ | ch
    · rfl
    · rcases h.service l out with before | free
      · have := law.service l before
        rw [h.holder l ch held] at this
        cases this
      · rw [free] at held
        cases held

/-- A channel that is not busy holds no bank. -/
theorem BankLaw.holder_ne {s : State} (law : BankLaw s) {ch : Letter}
    (free : (s.channels.get ch).activity.isBusy = false) (l : Letter) : (s.banks.get l).holder ≠ some ch := by
  intro held
  have := law.busy l ch held
  rw [free] at this
  cases this

theorem Letter.eq_other {a b c : Letter} (hb : b ≠ a) (hc : c ≠ a) : b = c := by
  cases a <;> cases b <;> cases c <;> simp_all

/-- The banks have different holders, for either bank named first. -/
theorem distinct_iff (s : State) :
    (s.banks.a.holder = none ∨ s.banks.a.holder ≠ s.banks.b.holder) ↔
      ∀ l k ch : Letter, l ≠ k → (s.banks.get l).holder = some ch → (s.banks.get k).holder ≠ some ch := by
  constructor
  · rintro apart l k ch differ held shared
    cases l <;> cases k
    case A.A => exact differ rfl
    case B.B => exact differ rfl
    case A.B =>
      change s.banks.a.holder = some ch at held
      change s.banks.b.holder = some ch at shared
      simp [held, shared] at apart
    case B.A =>
      change s.banks.b.holder = some ch at held
      change s.banks.a.holder = some ch at shared
      simp [held, shared] at apart
  · intro apart
    rcases held : s.banks.a.holder with _ | ch
    · exact .inl rfl
    · exact .inr (fun shared => apart .A .B ch nofun held shared.symm)

/-- A bank that is in service, and free of other channels, may be given to a busy channel that holds no other. -/
theorem BankLaw.take {u : State} (law : BankLaw u) {ch l : Letter} {b : Bank} (holder : b.holder = some ch)
    (service : b.service = .inService) (busy : (u.channels.get ch).activity.isBusy = true)
    (alone : ∀ k, k ≠ l → (u.banks.get k).holder ≠ some ch) : BankLaw (u.setBank l b) := by
  have at_l : (u.setBank l b).banks.get l = b := Pair.get_set_self ..
  have other (k : Letter) (h : k ≠ l) : (u.setBank l b).banks.get k = u.banks.get k := Pair.get_set_ne _ h _
  refine ⟨(distinct_iff _).mpr (fun k m c differ held => ?_), fun k c held => ?_, fun k out => ?_⟩
  · by_cases first : k = l
    · subst first
      rw [at_l, holder] at held
      cases held
      rw [other m (Ne.symm differ)]
      exact alone m (Ne.symm differ)
    · rw [other k first] at held
      by_cases second : m = l
      · subst second
        rw [at_l, holder]
        intro same
        cases same
        exact alone k first held
      · exact absurd (Letter.eq_other first second) differ
  · by_cases same : k = l
    · subst same
      rw [at_l, holder] at held
      cases held
      exact busy
    · rw [other k same] at held
      exact law.busy k c held
  · by_cases same : k = l
    · subst same
      rw [at_l, service] at out
      cases out
    · rw [other k same] at out ⊢
      exact law.service k out

theorem BankLaw.takeBank {u : State} (law : BankLaw u) {ch l : Letter} (service : (u.banks.get l).service = .inService)
    (busy : (u.channels.get ch).activity.isBusy = true) (alone : ∀ k, k ≠ l → (u.banks.get k).holder ≠ some ch)
    (position : Nat) (sense : Option Nat) : BankLaw (u.takeBank ch l position sense) := by
  unfold State.takeBank
  dsimp only
  split
  · split
    · exact (law.take (b := { u.banks.get l with holder := some ch }) rfl service busy alone).of_releases
        (releases_settle ..)
    · exact law.take rfl service busy alone
  · split <;> exact law.take rfl service busy alone

/-- The dispatch of a job that is eligible for a channel without a job. -/
theorem BankLaw.dispatch {s : State} (law : BankLaw s) {ch : Letter} {j : Job}
    (free : (s.channels.get ch).activity.isBusy = false) (eligible : EligibleOn s ch j) (senses : Pair (Option Nat)) :
    BankLaw (s.dispatch ch j senses) := by
  obtain ⟨l, position, needs, -, service, -⟩ := eligible.bank
  have banks : (s.started ch j).banks = s.banks := (started_frame s ch j).same .banks (by decide)
  rw [dispatch_eq senses needs]
  refine (law.of_releases (releases_started s ch j)).takeBank ?_ ?_ (fun k _ => ?_) ..
  · rw [banks]
    exact service
  · exact congrArg (fun c : Channel => c.activity.isBusy) (Pair.get_set_self ..)
  · rw [banks]
    exact law.holder_ne free k

/-! ### A pass -/

/-- After the abort of a job at a channel that may not be INHIBITED the channel is idle. -/
theorem idle_of_aborts {s u : State} {ch : Letter} {f : Flight} {j : Job} (aborts : Aborts ch f s u)
    (eligible : EligibleOn u ch j) : (u.channels.get ch).activity = .idle := by
  have rests : (u.channels.get ch).activity = if s.inputs.inhibit then .inhibited else .idle := by
    rw [aborts.givesUp.channels, Pair.get_set_self]
  rw [rests]
  refine if_neg (fun inhibited => eligible.awake ch ?_)
  rw [rests, if_pos inhibited]

/-- Pre-emption for one DEMAND job keeps what it keeps for a victim: its job aborted and put back, and the DEMAND job, which
is then eligible for the channel, dispatched to it. -/
theorem preemptFor_keeps {P : State → Prop} {senses : Pair (Option Nat)} {s : State} {demand : Nat}
    (victim : ∀ ch f c id rev, (s.channels.get ch).activity.flight? = some f → f.work = .test (.scheduled c) id rev →
      Aborts ch f s (s.abortChannel ch) → EligibleOn (s.abortChannel ch) ch (.test .demand demand) →
      P (((s.abortChannel ch).requeueScheduled c id).dispatch ch (.test .demand demand) senses)) (h : P s) :
    P (State.preemptFor senses s demand) := by
  unfold State.preemptFor
  split
  next => exact h
  next v chosen =>
    obtain ⟨f, ⟨⟨runs, ⟨rev, work⟩, -, u, aborted, eligible⟩, -⟩, -⟩ := isVictim_of_victimFor chosen
    have aborts := aborts_abortChannel runs
    exact victim v.channel f v.cls v.span rev runs work aborts (eligible.of_aborts aborted aborts)

theorem bankLaw_dispatchPass {s : State} (h : BankLaw s) (senses : Pair (Option Nat)) :
    BankLaw (s.dispatchPass senses) := by
  refine dispatchPass_keeps (fun u hu => hu.of_releases (.of_eq (fun _ => rfl) (fun _ => rfl) (fun _ h => h)))
    (fun u n hu => hu.of_releases (.of_eq (fun _ => rfl) (fun _ => rfl) (fun _ h => h))) (fun u ch hu => ?consider)
    (fun u demand _ hu => ?one) h
  case consider =>
    refine considerChannel_keeps (fun v j idle chosen hv => ?_) hu
    have eligible := (eligible_iff v ch j).mp (eligible_of_choose chosen)
    have scheduled : BankLaw { v with sched := (v.choose ch).sched } :=
      hv.of_releases (.of_eq (fun _ => rfl) (fun _ => rfl) (fun _ h => h))
    exact scheduled.dispatch (by rw [idle]; rfl)
      (eligible.congr rfl rfl rfl rfl (fun _ => rfl) (fun _ => rfl)) senses
  case one =>
    refine preemptFor_keeps (fun ch f c id rev _ _ aborts eligible => ?_) hu
    have requeued : BankLaw ((u.abortChannel ch).requeueScheduled c id) :=
      (hu.of_releases (releases_abortChannel u ch)).of_releases (.of_frame (requeueScheduled_frame ..) rfl)
    have idle : ((u.abortChannel ch).channels.get ch).activity = .idle := idle_of_aborts aborts eligible
    exact requeued.dispatch (congrArg Activity.isBusy idle)
      (eligible.congr rfl rfl rfl rfl (fun _ => rfl) (fun _ => rfl)) senses

theorem bankLaw_retestWindow {s : State} (h : BankLaw s) (held : List Nat) : BankLaw (s.retestWindow held) := by
  have unchanged {u v : State} (frame : KeepsBut [.timeBase, .sched, .draws] u v) (hu : BankLaw u) : BankLaw v :=
    hu.of_releases (.of_frame frame rfl)
  refine retestWindow_keeps (fun _ => ?opened) (fun _ => h.of_releases (releases_closeWindow s)) h
  have raised : BankLaw (s.raiseWindow.drawn.setAside held) := by
    refine unchanged (((raiseWindow_frame s).mono (by decide)).trans (((drawn_frame _).mono (by decide)).trans ?_)) h
    exact (setAside_frame ..).mono (by decide)
  exact unchanged ((putBack_frame ..).mono (by decide)) (bankLaw_dispatchPass raised s.drawnSenses)

/-! ### A step -/

theorem retireConditions_frame (s : State) (id : Nat) : KeepsBut [.table] s (s.retireConditions id) :=
  keepsBut_of_all (fun p => by cases p <;> first | (left; simp; done) | exact .inr rfl)

theorem judgeSpan_frame (s : State) (id : Nat) (kind : TestKind) (a : Analysis) (c : SpanCopy) :
    KeepsBut [.directory, .table] s (s.judgeSpan id kind a c) := by
  have written (o : LastOutcome) (d : Option Nat) : KeepsBut [.directory, .table] s (s.writeOutcome id o d) :=
    (modifySpan_frame ..).mono (by decide)
  have tested (x : Extraction) : KeepsBut [.directory, .table] s
      (if c.landmarks = [] then s.judgeBare id x else s.judgeBaseline id a.flight c x) := by
    split
    · exact written ..
    · exact (written ..).trans ((applyResult_frame ..).mono (by decide))
  cases kind with
  | scheduled cls => exact tested _
  | demand => exact tested _
  | learn =>
    change KeepsBut [.directory, .table] s (s.judgeLearn id a.flight.work (extract a.input c))
    unfold State.judgeLearn State.adoptList
    dsimp only
    split
    · exact (endWithOutcome_frame ..).mono (by decide)
    split
    · exact ((written ..).trans ((modifySpan_frame ..).mono (by decide))).trans
        ((retireConditions_frame ..).mono (by decide))
    · exact (written ..).trans ((modifySpan_frame ..).mono (by decide))

theorem disposeSpan_frame (s : State) (a : Analysis) (kind : TestKind) (id revision : Nat) (r : SpanRecord) :
    KeepsBut [.directory, .table] s (s.disposeSpan a kind id revision r) := by
  unfold State.disposeSpan
  split
  · exact becomeEmpty_frame ..
  split
  · exact .refl ..
  split
  · exact (endWithOutcome_frame ..).mono (by decide)
  split
  · exact judgeSpan_frame ..
  · exact .refl ..

/-- An analysis completion leaves every channel's activity: at most it writes a trim and a flag. -/
theorem dispose_activity (s : State) (a : Analysis) (ch : Letter) :
    ((s.dispose a).channels.get ch).activity = (s.channels.get ch).activity := by
  unfold State.dispose
  split
  next own coil _ =>
    split
    · rfl
    change ((s.channels.set a.flight.channel _).get ch).activity = _
    by_cases same : ch = a.flight.channel
    · rw [same, Pair.get_set_self]
      rfl
    · rw [Pair.get_set_ne _ same]
  split
  · rfl
  · rw [show _ = s.channels from (disposeSpan_frame s a _ _ _ _).same .channels (by decide)]

theorem releases_dispose (s : State) (a : Analysis) : Releases s (s.dispose a) := by
  have banks : (s.dispose a).banks = s.banks := (dispose_frame s a).same .banks (by decide)
  exact .of_eq (fun _ => by rw [banks]) (fun _ => by rw [banks]) (fun ch busy => by rw [dispose_activity]; exact busy)

theorem act_bankLaw {i : Instr} {n : Nat} {act : State → State × Reply} (h : requestAct i = some (n, act)) {s : State}
    (hs : BankLaw s) : BankLaw (act s).1 := by
  have frame := act_frame h s
  have stands {u : State} (banks : u.banks = s.banks) (channels : u.channels = s.channels) : BankLaw u :=
    hs.of_releases (.of_eq (fun _ => by rw [banks]) (fun _ => by rw [banks]) (fun _ => by rw [channels]; exact id))
  cases i
  case spanRetire id =>
    cases h
    change BankLaw (actSpanRetire id s).1
    unfold actSpanRetire retireSpan
    repeat' split
    any_goals exact stands rfl rfl
    next p _ _ =>
      exact (hs.of_releases (releases_removeJob s id.toNat p)).of_releases (.of_frame (becomeEmpty_frame ..) rfl)
  case testCancel id =>
    cases h
    change BankLaw (actTestCancel id s).1
    unfold actTestCancel
    repeat' split
    all_goals first | exact hs | exact hs.of_releases (releases_cancelJob ..)
  case clockSet time =>
    cases h
    have set : BankLaw { s with timeBase := { s.timeBase with timeOfDay := time.toNat, nextAdvance := s.now + secondNs } } :=
      stands rfl rfl
    change BankLaw (actClockSet time s).1
    unfold actClockSet
    split
    · exact hs
    · exact bankLaw_retestWindow set []
  case windowSet o c =>
    cases h
    have set : BankLaw { s with timeBase := { s.timeBase with openTime := o.toNat, closeTime := c.toNat } } :=
      stands rfl rfl
    change BankLaw (actWindowSet o c s).1
    unfold actWindowSet
    split
    · exact hs
    · exact bankLaw_retestWindow set []
  case coilSet bank length groupIndex =>
    cases h
    change BankLaw (actCoilSet bank length groupIndex s).1
    have stored (l : Letter) (c : Coil) : Releases s (s.storeCoil l c) := by
      have written : Releases s (s.setBank l ((s.banks.get l).withCoil c)) := releases_setBank s l (.inr rfl) .inl
      unfold State.storeCoil
      dsimp only
      split
      · exact written.trans (.of_frame (dropVerify_frame ..) rfl)
      · exact written
    unfold actCoilSet
    repeat' split
    all_goals first | exact hs | exact hs.of_releases (stored ..)
  case bankRestore bank sense =>
    cases h
    change BankLaw (actBankRestore bank sense s).1
    unfold actBankRestore
    repeat' split
    all_goals first | exact hs | exact hs.of_releases (releases_restoreBank ..)
  case changesRead => cases h; exact hs.of_releases (releases_returnItems ..)
  case restart => cases h; exact hs.of_releases (releases_restarted s)
  all_goals exact stands (frame.same .banks (of_decide_eq_true rfl)) (frame.same .channels (of_decide_eq_true rfl))

theorem event_bankLaw {i : Instr} {s t : State} (touches : Part.apart (eventParts i) [.banks, .channels] = false)
    (ran : exec i s = .next t) (hs : BankLaw s) : BankLaw t := by
  have reached (due : Nat) : BankLaw (s.reach due) := hs.of_releases (.of_frame (reach_frame s due) rfl)
  cases i <;> cases touches
  case inhibitAsserted =>
    have stops (u : State) (ch : Letter) (hu : BankLaw u) : BankLaw (u.inhibitChannel ch) :=
      hu.of_releases (releases_inhibitChannel u ch)
    have asserted : BankLaw { s with inputs := { s.inputs with inhibit := true } } :=
      hs.of_releases (.of_eq (fun _ => rfl) (fun _ => rfl) (fun _ h => h))
    change execInhibitAsserted s = .next t at ran
    unfold execInhibitAsserted at ran
    dsimp only at ran
    split at ran <;> cases ran
    · exact eitherOrder_keeps (fun u hu => hu.of_releases (.of_frame (drawn_frame u) rfl)) stops asserted
    · exact stops _ _ (stops _ _ asserted)
  case inhibitReleased =>
    have released (c : Channel) : c.released.activity.isBusy = c.activity.isBusy := by
      unfold Channel.released
      split
      next inhibited => rw [inhibited]; rfl
      all_goals rfl
    change execInhibitReleased s = .next t at ran
    unfold execInhibitReleased at ran
    split at ran <;> cases ran
    · refine hs.of_releases (.of_eq (fun _ => rfl) (fun _ => rfl) (fun ch busy => ?_))
      change ((s.channels.map Channel.released).get ch).activity.isBusy = true
      rw [Pair.get_map, released]
      exact busy
    · exact hs
  case timeAdvance =>
    cases ran
    have advanced : BankLaw { s.reach s.timeBase.nextAdvance with timeBase := s.timeBase.advanced } :=
      hs.of_releases (.of_eq (fun _ => rfl) (fun _ => rfl) (fun _ h => h))
    exact bankLaw_retestWindow advanced _
  case settleCompletion l sense =>
    change execSettleCompletion l sense s = .next t at ran
    unfold execSettleCompletion at ran
    split at ran <;> cases ran
    · exact (reached _).of_releases (releases_settle ..)
    · exact hs
  case guardCompletion ch sum =>
    change execGuardCompletion ch sum s = .next t at ran
    unfold execGuardCompletion at ran
    split at ran <;> cases ran
    · exact (reached _).of_releases (releases_guardDone ..)
    all_goals exact hs
  case shotAccumulated ch samples =>
    change execShotAccumulated ch samples s = .next t at ran
    unfold execShotAccumulated at ran
    repeat' split at ran
    all_goals cases ran
    · exact (reached _).of_releases (releases_setChannel _ ch (fun _ => rfl))
    all_goals exact hs
  case acquisitionCompletion ch =>
    change execAcquisitionCompletion ch s = .next t at ran
    unfold execAcquisitionCompletion at ran
    repeat' split at ran
    all_goals cases ran
    · exact (reached _).of_releases (releases_firstDone ..)
    · exact hs
    · exact (reached _).of_releases (releases_secondDone ..)
    all_goals exact hs
  case dispatchPass =>
    cases ran
    exact bankLaw_dispatchPass hs _
  case analysisCompletion =>
    change execAnalysisCompletion s = .next t at ran
    unfold execAnalysisCompletion at ran
    split at ran <;> cases ran
    · exact hs
    next a _ =>
      have disposed : Releases (s.reach a.due) ((s.reach a.due).dispose a) := releases_dispose ..
      have ended := endAnalysis_frame ((s.reach a.due).dispose a) a
      exact ((reached _).of_releases disposed).of_releases (.of_frame ended rfl)

theorem bankLaw_reset : HoldsAtReset BankLaw := by
  intro u straps inhibit
  have bankB : (u.resetTo straps inhibit).banks.b = if straps.bankB then presentBankAtReset else absentBank := rfl
  have fields (l : Letter) : ((u.resetTo straps inhibit).banks.get l).holder = none := by
    cases l
    · rfl
    · change (u.resetTo straps inhibit).banks.b.holder = none
      rw [bankB]
      split <;> rfl
  refine ⟨.inl rfl, fun l ch held => ?_, fun l _ => fields l⟩
  rw [fields l] at held
  cases held

theorem step_keeps_bankLaw {s t : State} (h : BankLaw s) (ran : step s = .next t) : BankLaw t := by
  have reads : Reads [.banks, .channels] BankLaw := by
    intro u v same hu
    have banks : v.banks = u.banks := same .banks (by simp)
    have channels : v.channels = u.channels := same .channels (by simp)
    exact hu.of_releases
      (.of_eq (fun _ => by rw [banks]) (fun _ => by rw [banks]) (fun _ => by rw [channels]; exact id))
  exact step_keeps reads rfl bankLaw_reset (fun i n act u kind hu => act_bankLaw kind hu)
    (fun i u v touches ran hu => event_bankLaw touches ran hu) h ran

end Sys2Proof.Machine

namespace Sys2Proof

open Machine in
/-- Settles O20: only a dispatch gives a bank a new holder. -/
theorem everyStepKeepsTheBankLaw : Obligations.EveryStepKeepsTheBankLaw :=
  fun _ _ law ran => step_keeps_bankLaw law ran

end Sys2Proof
end

section
/-! PROOFS. The INHIBIT law and the law of the class queues over a step. -/

namespace Sys2Proof.Machine

/-! ### Operations that put no channel to rest in INHIBITED, and wake none -/

/-- From `s` to `t` the INHIBIT input stands, and the same channels are INHIBITED. -/
structure Wakeful (s t : State) : Prop where
  inputs    : t.inputs = s.inputs
  inhibited : ∀ ch : Letter, (t.channels.get ch).activity.isInhibited = (s.channels.get ch).activity.isInhibited

theorem Wakeful.refl (s : State) : Wakeful s s := ⟨rfl, fun _ => rfl⟩

theorem Wakeful.trans {s t u : State} (h : Wakeful s t) (k : Wakeful t u) : Wakeful s u :=
  ⟨k.inputs.trans h.inputs, fun ch => (k.inhibited ch).trans (h.inhibited ch)⟩

theorem Wakeful.after {s t u : State} (k : Wakeful t u) (h : Wakeful s t) : Wakeful s u := h.trans k

theorem Wakeful.of_frame {l : List Part} {s t : State} (frame : KeepsBut l s t)
    (apart : Part.apart l [.inputs, .channels] = true) : Wakeful s t := by
  have same (p : Part) (hp : p ∈ [Part.inputs, .channels]) : p.Same s t :=
    frame.same p (fun hl => by have := List.all_eq_true.mp apart p hp; simp [hl] at this)
  have channels : t.channels = s.channels := same .channels (by simp)
  exact ⟨same .inputs (by simp), fun _ => by rw [channels]⟩

theorem InhibitLaw.of_wakeful {s t : State} (law : InhibitLaw s) (h : Wakeful s t) : InhibitLaw t := by
  intro ch
  rw [h.inhibited ch, h.inputs]
  exact law ch

/-- One channel's record replaced by one that is INHIBITED as the old one was. -/
theorem Wakeful.of_set {s t : State} {ch : Letter} {c : Channel} (inputs : t.inputs = s.inputs)
    (channels : t.channels = s.channels.set ch c)
    (same : c.activity.isInhibited = (s.channels.get ch).activity.isInhibited) : Wakeful s t := by
  refine ⟨inputs, fun k => ?_⟩
  rw [channels]
  by_cases at_ch : k = ch
  · rw [at_ch, Pair.get_set_self]
    exact same
  · rw [Pair.get_set_ne _ at_ch]

theorem wakeful_setChannel (s : State) (ch : Letter) {c : Channel}
    (same : c.activity.isInhibited = (s.channels.get ch).activity.isInhibited) : Wakeful s (s.setChannel ch c) :=
  .of_set rfl rfl same

theorem isInhibited_of_flight {a : Activity} {f : Flight} (busy : a.flight? = some f) : a.isInhibited = false := by
  cases a <;> cases busy
  rfl

section Busy

variable {s : State} {ch : Letter} (awake : (s.channels.get ch).activity.isInhibited = false)
include awake

theorem wakeful_dropFlight (f : Flight) : Wakeful s (s.dropFlight ch f .idle) :=
  .of_set ((dropFlight_frame s ch f .idle).same .inputs (by decide)) (givesUp_dropFlight s ch f .idle).channels awake.symm

theorem wakeful_handOn (f : Flight) : Wakeful s (s.handOn ch f) :=
  .of_set ((handOn_frame s ch f).same .inputs (by decide)) (handsOn_handOn s ch f).channels awake.symm

theorem wakeful_busy (stage : Stage) (f : Flight) (sums : List Nat) :
    Wakeful s (s.setChannel ch { s.channels.get ch with activity := .busy stage f, accumulator := sums }) :=
  wakeful_setChannel s ch awake.symm

theorem wakeful_setActivity (stage : Stage) (f : Flight) : Wakeful s (s.setActivity ch (.busy stage f)) :=
  wakeful_setChannel s ch awake.symm

theorem wakeful_cut1310 (f : Flight) : Wakeful s (s.cut1310 ch f) := by
  unfold State.cut1310
  split
  · exact (Wakeful.of_frame (fillBuffer_frame s _ _ _) rfl).trans (wakeful_handOn (s := s.fillBuffer _ _ _) awake _)
  · exact (Wakeful.of_frame (free1310_frame s _) rfl).trans (wakeful_handOn (s := s.free1310 _) awake _)

theorem wakeful_guardDone (f : Flight) (level : Nat) : Wakeful s (s.guardDone ch f level) := by
  have starts {u : State} (frame : KeepsBut [.directory, .buffers, .sched] s u) (g : Flight) :
      Wakeful s (u.startFiring ch g) := by
    have channels : u.channels = s.channels := frame.same .channels (by decide)
    exact (Wakeful.of_frame frame rfl).trans (wakeful_busy (by rw [channels]; exact awake) ..)
  unfold State.guardDone
  split
  · have written := endWithOutcome_frame s f.work .liveOverload
    have channels : (s.endWithOutcome f.work .liveOverload).channels = s.channels := written.same .channels (by decide)
    exact (Wakeful.of_frame written rfl).trans (wakeful_dropFlight (by rw [channels]; exact awake) f)
  split
  · have found : KeepsBut [.directory, .buffers, .sched] s (s.liveFound f.work) := (liveFound_frame ..).mono (by decide)
    unfold State.guardLive
    dsimp only
    split
    · exact starts (found.trans ((free1310_frame ..).mono (by decide))) _
    · exact starts found _
  · exact starts ((liveGone_frame ..).mono (by decide)) _

theorem wakeful_firstDone (f : Flight) : Wakeful s (s.firstDone ch f) := by
  have written : Wakeful s (s.writeTrace ch f .nm1625) := .of_frame (fillBuffer_frame ..) rfl
  unfold State.firstDone
  dsimp only
  split
  · exact written.trans (wakeful_busy (s := s.writeTrace ch f .nm1625) awake ..)
  · exact written.trans (wakeful_handOn (s := s.writeTrace ch f .nm1625) awake f)

theorem wakeful_secondDone (f : Flight) : Wakeful s (s.secondDone ch f) :=
  (Wakeful.of_frame (fillBuffer_frame ..) rfl).trans (wakeful_handOn (s := s.writeTrace ch f .nm1310) awake f)

end Busy

theorem wakeful_settle (s : State) (l : Letter) (sense : Option Nat) : Wakeful s (s.settle l sense) := by
  have written (b : Bank) : Wakeful s (s.setBank l b) := .of_frame (setBank_frame ..) rfl
  unfold State.settle
  dsimp only
  split
  · split <;> exact written _
  split
  next ch _ _ stage f busy =>
    have awake : (s.channels.get ch).activity.isInhibited = false := by rw [busy]; rfl
    split
    · exact (written _).trans (wakeful_setActivity (s := s.setBank l _) awake ..)
    · have frame : KeepsBut [.banks, .directory] s
          ((s.setBank l ((s.banks.get l).faulted sense)).endWithOutcome f.work .bankFault) :=
        ((setBank_frame ..).mono (by decide)).trans ((endWithOutcome_frame ..).mono (by decide))
      have channels := frame.same .channels (by decide)
      exact (Wakeful.of_frame frame rfl).trans (wakeful_dropFlight (by rw [channels]; exact awake) f)
  all_goals split <;> exact written _

theorem wakeful_takeBank (s : State) (ch l : Letter) (position : Nat) (sense : Option Nat) :
    Wakeful s (s.takeBank ch l position sense) := by
  have written (b : Bank) : Wakeful s (s.setBank l b) := .of_frame (setBank_frame ..) rfl
  unfold State.takeBank
  dsimp only
  split
  · split
    · exact (written _).trans (wakeful_settle ..)
    · exact written _
  · split <;> exact written _

theorem wakeful_dispatch {s : State} {ch : Letter} (idle : (s.channels.get ch).activity = .idle) (j : Job)
    (senses : Pair (Option Nat)) : Wakeful s (s.dispatch ch j senses) := by
  have frame : KeepsBut [.sched, .buffers] s ((s.unqueue j).takeBuffers j.id (s.planFor ch j)) :=
    ((unqueue_frame s j).mono (by decide)).trans ((takeBuffers_frame ..).mono (by decide))
  have channels := frame.same .channels (by decide)
  have started : Wakeful s (s.started ch j) :=
    (Wakeful.of_frame frame rfl).trans (wakeful_setActivity (by rw [channels, idle]; rfl) ..)
  unfold State.dispatch
  split
  · exact .refl s
  · exact started.trans (wakeful_takeBank ..)

theorem wakeful_closeAtChannel (s : State) (ch : Letter) : Wakeful s (s.closeAtChannel ch) := by
  have drops {stage : Stage} {f : Flight} (busy : (s.channels.get ch).activity = .busy stage f) :
      Wakeful s (s.drop1310 ch stage f) :=
    (wakeful_setActivity (by rw [busy]; rfl) ..).trans (.of_frame (free1310_frame ..) rfl)
  unfold State.closeAtChannel
  split
  next => exact .refl s
  next => exact .refl s
  next busy => exact wakeful_cut1310 (by rw [busy]; rfl) _
  all_goals
    split
    · exact drops (by assumption)
    · exact .refl s

theorem wakeful_closeWindow (s : State) : Wakeful s s.closeWindow := by
  have discarded : Wakeful s (({ s with timeBase := { s.timeBase with windowOpen := false } } : State).discardQueued) :=
    ⟨rfl, fun _ => rfl⟩
  have atChannels := closeAtChannels_keeps (P := Wakeful s)
    (fun u h => h.trans (.of_frame (drawn_frame u) rfl)) (fun u ch h => h.trans (wakeful_closeAtChannel u ch)) discarded
  exact atChannels.trans (.of_frame (callDispatch_frame _) rfl)

/-! ### The INHIBIT law -/

/-- The channel whose job is aborted rests as the input has it. -/
theorem InhibitLaw.abortChannel {s : State} (law : InhibitLaw s) (ch : Letter) : InhibitLaw (s.abortChannel ch) := by
  unfold State.abortChannel
  split
  next f _ =>
    intro k
    have inputs : (s.dropFlight ch f s.restActivity).inputs = s.inputs := (dropFlight_frame ..).same .inputs (by decide)
    rw [inputs, (givesUp_dropFlight s ch f s.restActivity).channels]
    by_cases same : k = ch
    · rw [same, Pair.get_set_self]
      change s.restActivity.isInhibited = s.inputs.inhibit
      unfold State.restActivity
      cases s.inputs.inhibit <;> rfl
    · rw [Pair.get_set_ne _ same]
      exact law k
  next => exact law
  next => exact law

theorem InhibitLaw.removeJob {s : State} (law : InhibitLaw s) (id : Nat) (place : JobPlace) :
    InhibitLaw (s.removeJob id place) := by
  cases place with
  | channel ch f => exact law.abortChannel ch
  | classQueue c => exact law
  | demandQueue learn => exact law
  | waiting f => exact law.of_wakeful (.of_frame (leaveAnalysisQueue_frame ..) rfl)
  | analysing a => exact law

theorem InhibitLaw.cancelJob {s : State} (law : InhibitLaw s) (id : Nat) (place : JobPlace) :
    InhibitLaw (cancelJob s id place) := by
  have removed (p : JobPlace) (learn : Bool) : InhibitLaw ((s.removeJob id p).writeCancelled id learn) :=
    (law.removeJob id p).of_wakeful (.of_frame (writeCancelled_frame ..) rfl)
  cases place with
  | analysing a =>
    unfold Machine.cancelJob
    dsimp only
    split
    · exact law
    · exact law.of_wakeful
        ((Wakeful.of_frame (markCancelled_frame s a) rfl).trans (.of_frame (writeCancelled_frame ..) rfl))
  | _ => unfold Machine.cancelJob; exact removed _ _

theorem inhibitLaw_dispatchPass {s : State} (h : InhibitLaw s) (senses : Pair (Option Nat)) :
    InhibitLaw (s.dispatchPass senses) := by
  refine dispatchPass_keeps (fun u hu => hu) (fun u n hu => hu) (fun u ch hu => ?consider) (fun u demand _ hu => ?one) h
  case consider =>
    refine considerChannel_keeps (fun v j idle _ hv => ?_) hu
    exact InhibitLaw.of_wakeful (s := { v with sched := (v.choose ch).sched }) hv
      (wakeful_dispatch (s := { v with sched := (v.choose ch).sched }) idle j senses)
  case one =>
    refine preemptFor_keeps (fun ch f c id rev _ _ aborts eligible => ?_) hu
    have idle : ((u.abortChannel ch).channels.get ch).activity = .idle := idle_of_aborts aborts eligible
    exact InhibitLaw.of_wakeful (s := (u.abortChannel ch).requeueScheduled c id) (hu.abortChannel ch)
      (wakeful_dispatch (s := (u.abortChannel ch).requeueScheduled c id) idle _ senses)

theorem inhibitLaw_retestWindow {s : State} (h : InhibitLaw s) (held : List Nat) : InhibitLaw (s.retestWindow held) :=
  retestWindow_keeps (fun _ => inhibitLaw_dispatchPass (s := s.raiseWindow.drawn.setAside held) h s.drawnSenses)
    (fun _ => h.of_wakeful (wakeful_closeWindow s)) h

theorem wakeful_restoreBank (s : State) (l : Letter) (sense : Option Nat) : Wakeful s (s.restoreBank l sense) := by
  have written (b : Bank) : Wakeful s (s.setBank l b) := .of_frame (setBank_frame ..) rfl
  have called (u : State) : Wakeful u u.callDispatch := .of_frame (callDispatch_frame u) rfl
  unfold State.restoreBank
  dsimp only
  split
  · exact (called _).after ((wakeful_settle ..).after (written _))
  · exact (called _).after (written _)

theorem InhibitLaw.restarted {s : State} (law : InhibitLaw s) : InhibitLaw s.restarted := by
  have rests (c : Channel) (hc : c.activity.isInhibited = s.inputs.inhibit) :
      (c.restarted s.restActivity).activity.isInhibited = s.inputs.inhibit := by
    unfold Channel.restarted
    split
    · change s.restActivity.isInhibited = s.inputs.inhibit
      unfold State.restActivity
      cases s.inputs.inhibit <;> rfl
    · exact hc
    · exact hc
  intro ch
  cases ch
  · exact rests _ (law .A)
  · exact rests _ (law .B)

theorem act_inhibitLaw {i : Instr} {n : Nat} {act : State → State × Reply} (h : requestAct i = some (n, act)) {s : State}
    (hs : InhibitLaw s) : InhibitLaw (act s).1 := by
  have frame := act_frame h s
  cases i
  case spanRetire id =>
    cases h
    change InhibitLaw (actSpanRetire id s).1
    unfold actSpanRetire retireSpan
    repeat' split
    any_goals exact hs
    next p _ _ =>
      exact (hs.removeJob id.toNat p).of_wakeful (.of_frame (becomeEmpty_frame ..) rfl)
  case testCancel id =>
    cases h
    change InhibitLaw (actTestCancel id s).1
    unfold actTestCancel
    repeat' split
    all_goals first | exact hs | exact hs.cancelJob _ _
  case clockSet time =>
    cases h
    change InhibitLaw (actClockSet time s).1
    unfold actClockSet
    split
    · exact hs
    · exact inhibitLaw_retestWindow
        (s := { s with timeBase := { s.timeBase with timeOfDay := time.toNat, nextAdvance := s.now + secondNs } }) hs []
  case windowSet o c =>
    cases h
    change InhibitLaw (actWindowSet o c s).1
    unfold actWindowSet
    split
    · exact hs
    · exact inhibitLaw_retestWindow
        (s := { s with timeBase := { s.timeBase with openTime := o.toNat, closeTime := c.toNat } }) hs []
  case bankRestore bank sense =>
    cases h
    change InhibitLaw (actBankRestore bank sense s).1
    unfold actBankRestore
    repeat' split
    all_goals first | exact hs | exact hs.of_wakeful (wakeful_restoreBank ..)
  case changesRead =>
    cases h
    refine hs.of_wakeful ⟨rfl, fun ch => ?_⟩
    cases ch <;> exact congrArg Activity.isInhibited (Channel.afterRead_activity ..)
  case restart => cases h; exact hs.restarted
  all_goals
    intro ch
    rw [show _ = s.channels from frame.same .channels (of_decide_eq_true rfl),
      show _ = s.inputs from frame.same .inputs (of_decide_eq_true rfl)]
    exact hs ch

/-- After an assertion at it a channel is INHIBITED, and the other channel stands. -/
theorem inhibitChannel_inhibited (s : State) (ch k : Letter) :
    ((s.inhibitChannel ch).channels.get k).activity.isInhibited =
      (decide (k = ch) || (s.channels.get k).activity.isInhibited) := by
  have marked (u : State) (l : Letter) : ((u.markChannel ch).channels.get l).activity = (u.channels.get l).activity := by
    change ((u.channels.set ch _).get l).activity = _
    by_cases same : l = ch
    · rw [same, Pair.get_set_self]
    · rw [Pair.get_set_ne _ same]
  unfold State.inhibitChannel
  split
  next idle =>
    rw [marked]
    change ((s.channels.set ch _).get k).activity.isInhibited = _
    by_cases same : k = ch
    · rw [same, Pair.get_set_self, decide_eq_true rfl, Bool.true_or]
      rfl
    · rw [Pair.get_set_ne _ same, decide_eq_false same, Bool.false_or]
  next stage f busy =>
    have returned := (returnJob_frame ((s.dropFlight ch f .inhibited).markChannel ch) f.work).same .channels (by decide)
    rw [returned, marked, (givesUp_dropFlight s ch f .inhibited).channels]
    by_cases same : k = ch
    · rw [same, Pair.get_set_self, decide_eq_true rfl, Bool.true_or]
      rfl
    · rw [Pair.get_set_ne _ same, decide_eq_false same, Bool.false_or]
  next inhibited =>
    by_cases same : k = ch
    · rw [same, inhibited, decide_eq_true rfl, Bool.true_or]
      rfl
    · rw [decide_eq_false same, Bool.false_or]

/-- Both channels taken, in either order, are INHIBITED. -/
theorem inhibitLaw_of_both {s : State} (asserted : s.inputs.inhibit = true) (first second : Letter) (differ : first ≠ second) :
    InhibitLaw ((s.inhibitChannel first).inhibitChannel second) := by
  have inputs : ((s.inhibitChannel first).inhibitChannel second).inputs = s.inputs :=
    ((inhibitChannel_frame s first).trans (inhibitChannel_frame _ second)).same .inputs (by decide)
  intro k
  rw [inputs, asserted, inhibitChannel_inhibited, inhibitChannel_inhibited]
  by_cases same : k = second
  · rw [decide_eq_true same, Bool.true_or]
  · rw [Letter.eq_other same differ, decide_eq_true (rfl : first = first), Bool.true_or, Bool.or_true]

theorem inhibitLaw_inhibitReleased {s t : State} (hs : InhibitLaw s) (ran : exec .inhibitReleased s = .next t) :
    InhibitLaw t := by
  have awake (c : Channel) : c.released.activity.isInhibited = false := by
    unfold Channel.released
    split
    next => rfl
    next idle => rw [idle]; rfl
    next busy => rw [busy]; rfl
  change execInhibitReleased s = .next t at ran
  unfold execInhibitReleased at ran
  split at ran <;> cases ran
  · intro ch
    change ((s.channels.map Channel.released).get ch).activity.isInhibited = false
    rw [Pair.get_map, awake]
  · exact hs

theorem event_inhibitLaw {i : Instr} {s t : State} (touches : Part.apart (eventParts i) [.inputs, .channels] = false)
    (ran : exec i s = .next t) (hs : InhibitLaw s) : InhibitLaw t := by
  cases i <;> cases touches
  case inhibitAsserted =>
    change execInhibitAsserted s = .next t at ran
    unfold execInhibitAsserted at ran
    dsimp only at ran
    split at ran <;> cases ran
    · unfold State.eitherOrder
      split
      · exact inhibitLaw_of_both (s := State.drawn _) rfl .B .A nofun
      · exact inhibitLaw_of_both (s := State.drawn _) rfl .A .B nofun
    · exact inhibitLaw_of_both rfl .A .B nofun
  case inhibitReleased => exact inhibitLaw_inhibitReleased hs ran
  case timeAdvance =>
    cases ran
    exact inhibitLaw_retestWindow
      (s := { s.reach s.timeBase.nextAdvance with timeBase := s.timeBase.advanced }) hs _
  case settleCompletion l sense =>
    change execSettleCompletion l sense s = .next t at ran
    unfold execSettleCompletion at ran
    split at ran <;> cases ran
    · exact InhibitLaw.of_wakeful (s := s.reach _) hs (wakeful_settle ..)
    · exact hs
  case guardCompletion ch sum =>
    change execGuardCompletion ch sum s = .next t at ran
    unfold execGuardCompletion at ran
    split at ran <;> cases ran
    next due f busy =>
      exact InhibitLaw.of_wakeful (s := s.reach due) hs (wakeful_guardDone (s := s.reach due) (ch := ch)
        (congrArg Activity.isInhibited busy) ..)
    all_goals exact hs
  case shotAccumulated ch samples =>
    change execShotAccumulated ch samples s = .next t at ran
    unfold execShotAccumulated at ran
    repeat' split at ran
    all_goals cases ran
    next stage f busy _ since _ _ =>
      exact InhibitLaw.of_wakeful (s := s.reach _) hs (wakeful_busy (s := s.reach _) (ch := ch)
        (congrArg Activity.isInhibited busy) ..)
    all_goals exact hs
  case acquisitionCompletion ch =>
    change execAcquisitionCompletion ch s = .next t at ran
    unfold execAcquisitionCompletion at ran
    repeat' split at ran
    all_goals cases ran
    next since f busy _ =>
      exact InhibitLaw.of_wakeful (s := s.reach _) hs (wakeful_firstDone (s := s.reach _) (ch := ch)
        (congrArg Activity.isInhibited busy) f)
    next => exact hs
    next since f busy _ =>
      exact InhibitLaw.of_wakeful (s := s.reach _) hs (wakeful_secondDone (s := s.reach _) (ch := ch)
        (congrArg Activity.isInhibited busy) f)
    all_goals exact hs
  case dispatchPass =>
    cases ran
    exact inhibitLaw_dispatchPass hs _
  case analysisCompletion =>
    change execAnalysisCompletion s = .next t at ran
    unfold execAnalysisCompletion at ran
    split at ran <;> cases ran
    · exact hs
    next a _ =>
      have disposed : Wakeful (s.reach a.due) ((s.reach a.due).dispose a) :=
        ⟨(dispose_frame (s.reach a.due) a).same .inputs (by decide), fun ch => by rw [dispose_activity]⟩
      have ended := endAnalysis_frame ((s.reach a.due).dispose a) a
      exact InhibitLaw.of_wakeful (s := s.reach a.due) hs (disposed.trans (.of_frame ended rfl))

theorem inhibitLaw_reset : HoldsAtReset InhibitLaw := by
  intro u straps inhibit ch
  have channel : (u.resetTo straps inhibit).channels.get ch = channelAtReset inhibit := by cases ch <;> rfl
  rw [channel]
  change (if inhibit then Activity.inhibited else .idle).isInhibited = inhibit
  cases inhibit <;> rfl

theorem step_keeps_inhibitLaw {s t : State} (h : InhibitLaw s) (ran : step s = .next t) : InhibitLaw t := by
  have reads : Reads [.inputs, .channels] InhibitLaw := by
    intro u v same hu ch
    rw [show v.channels = u.channels from same .channels (by simp), show v.inputs = u.inputs from same .inputs (by simp)]
    exact hu ch
  exact step_keeps reads rfl inhibitLaw_reset (fun i n act u kind hu => act_inhibitLaw kind hu)
    (fun i u v touches ran hu => event_inhibitLaw touches ran hu) h ran

/-! ### Operations that at most call for a dispatch pass

They change nothing of the scheduler but its call for a pass. -/

/-- From `s` to `t` nothing of the scheduler changed but the call for a dispatch pass. -/
def Calls (s t : State) : Prop := ∃ called, t.sched = { s.sched with dispatchCalled := called }

theorem Calls.refl (s : State) : Calls s s := ⟨s.sched.dispatchCalled, rfl⟩

theorem Calls.trans {s t u : State} (h : Calls s t) (k : Calls t u) : Calls s u := by
  obtain ⟨first, ht⟩ := h
  obtain ⟨second, hu⟩ := k
  exact ⟨second, by rw [hu, ht]⟩

theorem Calls.after {s t u : State} (k : Calls t u) (h : Calls s t) : Calls s u := h.trans k

theorem Calls.of_frame {l : List Part} {s t : State} (frame : KeepsBut l s t) (apart : Part.apart l [.sched] = true) :
    Calls s t := by
  have sched : t.sched = s.sched :=
    frame.same .sched (fun hl => by have := List.all_eq_true.mp apart .sched (by simp); simp [hl] at this)
  exact ⟨s.sched.dispatchCalled, sched⟩

theorem Calls.classQueues {s t : State} (h : Calls s t) : t.sched.classQueues = s.sched.classQueues := by
  obtain ⟨called, ht⟩ := h
  rw [ht]

theorem calls_callDispatch (s : State) : Calls s s.callDispatch := ⟨true, rfl⟩

theorem calls_dropFlight (s : State) (ch : Letter) (f : Flight) (rest : Activity) : Calls s (s.dropFlight ch f rest) :=
  ⟨true, rfl⟩

theorem calls_abortChannel (s : State) (ch : Letter) : Calls s (s.abortChannel ch) := by
  unfold State.abortChannel
  split
  · exact calls_dropFlight ..
  · exact .refl s
  · exact .refl s

theorem calls_settle (s : State) (l : Letter) (sense : Option Nat) : Calls s (s.settle l sense) := by
  have written (b : Bank) : Calls s (s.setBank l b) := .of_frame (setBank_frame ..) rfl
  unfold State.settle
  dsimp only
  split
  · split <;> exact written _
  split
  · split
    · exact (written _).trans (.of_frame (setActivity_frame ..) rfl)
    · exact ((written _).trans (.of_frame (endWithOutcome_frame ..) rfl)).trans (calls_dropFlight ..)
  all_goals split <;> exact written _

theorem calls_takeBank (s : State) (ch l : Letter) (position : Nat) (sense : Option Nat) :
    Calls s (s.takeBank ch l position sense) := by
  have written (b : Bank) : Calls s (s.setBank l b) := .of_frame (setBank_frame ..) rfl
  unfold State.takeBank
  dsimp only
  split
  · split
    · exact (written _).trans (calls_settle ..)
    · exact written _
  · split <;> exact written _

theorem calls_free1310 (s : State) (j : JobId) : Calls s (s.free1310 j) := ⟨true, rfl⟩

theorem calls_handOn (s : State) (ch : Letter) (f : Flight) : Calls s (s.handOn ch f) := ⟨true, (handsOn_handOn s ch f).called⟩

theorem calls_cut1310 (s : State) (ch : Letter) (f : Flight) : Calls s (s.cut1310 ch f) := by
  unfold State.cut1310
  split
  · exact (calls_handOn ..).after (.of_frame (fillBuffer_frame ..) rfl)
  · exact (calls_handOn ..).after (calls_free1310 ..)

theorem calls_closeAtChannel (s : State) (ch : Letter) : Calls s (s.closeAtChannel ch) := by
  have drops (stage : Stage) (f : Flight) : Calls s (s.drop1310 ch stage f) := (calls_free1310 ..).after ⟨_, rfl⟩
  unfold State.closeAtChannel
  split
  · exact .refl s
  · exact .refl s
  · exact calls_cut1310 ..
  all_goals
    split
    · exact drops ..
    · exact .refl s

theorem calls_closeAtChannels (s : State) : Calls s s.closeAtChannels :=
  closeAtChannels_keeps (P := Calls s) (fun _ h => h.trans (.of_frame (drawn_frame _) rfl))
    (fun u ch h => h.trans (calls_closeAtChannel u ch)) (.refl s)

theorem calls_guardDone (s : State) (ch : Letter) (f : Flight) (level : Nat) : Calls s (s.guardDone ch f level) := by
  have starts (t : State) (g : Flight) : Calls t (t.startFiring ch g) := ⟨_, rfl⟩
  have found : Calls s (s.liveFound f.work) := .of_frame (liveFound_frame ..) rfl
  unfold State.guardDone
  split
  · exact (calls_dropFlight ..).after (.of_frame (endWithOutcome_frame ..) rfl)
  split
  · unfold State.guardLive
    dsimp only
    split
    · exact (found.trans (calls_free1310 ..)).trans (starts ..)
    · exact found.trans (starts ..)
  · exact (starts ..).after (.of_frame (liveGone_frame ..) rfl)

theorem calls_firstDone (s : State) (ch : Letter) (f : Flight) : Calls s (s.firstDone ch f) := by
  unfold State.firstDone
  dsimp only
  split
  · exact ⟨_, rfl⟩
  · exact (calls_handOn ..).after (.of_frame (fillBuffer_frame ..) rfl)

theorem calls_secondDone (s : State) (ch : Letter) (f : Flight) : Calls s (s.secondDone ch f) :=
  (calls_handOn ..).after (.of_frame (fillBuffer_frame ..) rfl)

theorem calls_takeHead (s : State) : Calls s s.takeHead := .of_frame (takeHead_frame s) rfl

theorem calls_leaveAnalysisQueue (s : State) (j : JobId) : Calls s (s.leaveAnalysisQueue j) :=
  (calls_takeHead _).after ⟨true, rfl⟩

theorem calls_endAnalysis (s : State) (a : Analysis) : Calls s (s.endAnalysis a) := (calls_takeHead _).after ⟨true, rfl⟩

theorem calls_restoreBank (s : State) (l : Letter) (sense : Option Nat) : Calls s (s.restoreBank l sense) := by
  unfold State.restoreBank
  dsimp only
  split
  · exact (calls_callDispatch _).after ((calls_settle ..).after ⟨_, rfl⟩)
  · exact (calls_callDispatch _).after ⟨_, rfl⟩

/-! ### The law of the class queues -/

/-- From `s` to `t` the time base stands, and no empty class queue gained a job. -/
structure Drains (s t : State) : Prop where
  timeBase : t.timeBase = s.timeBase
  empty    : ∀ c : Fin 4, s.sched.classQueues.get c = [] → t.sched.classQueues.get c = []

theorem Drains.refl (s : State) : Drains s s := ⟨rfl, fun _ h => h⟩

theorem Drains.trans {s t u : State} (h : Drains s t) (k : Drains t u) : Drains s u :=
  ⟨k.timeBase.trans h.timeBase, fun c hc => k.empty c (h.empty c hc)⟩

theorem Drains.of_calls {l : List Part} {s t : State} (calls : Calls s t) (frame : KeepsBut l s t)
    (apart : Part.timeBase ∉ l) : Drains s t :=
  ⟨frame.same .timeBase apart, fun c h => by rw [calls.classQueues]; exact h⟩

theorem QueueLaw.of_drains {s t : State} (law : QueueLaw s) (h : Drains s t) : QueueLaw t := by
  intro closed c
  rw [h.timeBase] at closed
  exact h.empty c (law closed c)

theorem queueLaw_of_open {s : State} (windowOpen : s.timeBase.windowOpen = true) : QueueLaw s := by
  intro closed
  rw [windowOpen] at closed
  cases closed

theorem queueLaw_of_empty {s : State} (empty : s.sched.classQueues = ⟨[], [], [], []⟩) : QueueLaw s := by
  intro _ c
  rw [empty]
  fin_cases c <;> rfl

theorem drains_leaveClassQueue (s : State) (id : Nat) : Drains s (s.leaveClassQueue id) := by
  refine ⟨rfl, fun c h => ?_⟩
  change (s.sched.classQueues.map _).get c = []
  rw [Quad.get_map, h]
  rfl

theorem drains_unqueue (s : State) (j : Job) : Drains s (s.unqueue j) := by
  cases j with
  | verify own => exact ⟨rfl, fun _ h => h⟩
  | test kind id =>
    cases kind with
    | scheduled c => exact drains_leaveClassQueue s id
    | demand => exact ⟨rfl, fun _ h => h⟩
    | learn => exact ⟨rfl, fun _ h => h⟩

theorem drains_dispatch (s : State) (ch : Letter) (j : Job) (senses : Pair (Option Nat)) :
    Drains s (s.dispatch ch j senses) := by
  unfold State.dispatch
  split
  · exact .refl s
  · have taken : KeepsBut [.buffers, .channels] (s.unqueue j) (s.started ch j) :=
      ((takeBuffers_frame ..).mono (by decide)).trans ((setActivity_frame ..).mono (by decide))
    have started : Drains s (s.started ch j) :=
      (drains_unqueue s j).trans (.of_calls (.of_frame taken rfl) taken (by decide))
    exact started.trans (.of_calls (calls_takeBank ..) (takeBank_frame ..) (by decide))

/-- Outside a window a pass adds no job to a class queue. -/
theorem queueLaw_dispatchPass {s : State} (h : QueueLaw s) (senses : Pair (Option Nat)) : QueueLaw (s.dispatchPass senses) := by
  refine dispatchPass_keeps (fun u hu => hu) (fun u n hu => hu) (fun u ch hu => ?consider) (fun u demand isOpen hu => ?one) h
  case consider =>
    refine considerChannel_keeps (fun v j _ _ hv => ?_) hu
    have sched : ({ v with sched := (v.choose ch).sched } : State).sched.classQueues = v.sched.classQueues := by
      change (v.choose ch).sched.classQueues = v.sched.classQueues
      unfold State.choose State.weightedChoice
      split
      · rfl
      dsimp only
      split
      · rfl
      split <;> rfl
    have chosen : QueueLaw { v with sched := (v.choose ch).sched } :=
      hv.of_drains ⟨rfl, fun c hc => by rw [sched]; exact hc⟩
    exact chosen.of_drains (drains_dispatch ..)
  case one =>
    refine queueLaw_of_open ?_
    rw [show _ = u.timeBase from (preemptFor_frame senses u demand).same .timeBase (by decide)]
    exact isOpen

theorem queueLaw_retestWindow {s : State} (h : QueueLaw s) (held : List Nat) : QueueLaw (s.retestWindow held) := by
  refine retestWindow_keeps (fun _ => ?opened) (fun _ => ?closed) h
  case opened =>
    refine queueLaw_of_open ?_
    rw [timeBase_openWindow]
  case closed =>
    have atChannels := calls_closeAtChannels
      (({ s with timeBase := { s.timeBase with windowOpen := false } } : State).discardQueued)
    exact queueLaw_of_empty (atChannels.classQueues.trans rfl)

theorem drains_removeJob (s : State) (id : Nat) (place : JobPlace) : Drains s (s.removeJob id place) := by
  cases place with
  | classQueue c => exact drains_leaveClassQueue s id
  | demandQueue learn => exact ⟨rfl, fun _ h => h⟩
  | channel ch f => exact .of_calls (calls_abortChannel s ch) (abortChannel_frame ..) (by decide)
  | waiting f => exact .of_calls (calls_leaveAnalysisQueue s _) (leaveAnalysisQueue_frame ..) (by decide)
  | analysing a => exact .refl s

theorem drains_cancelJob (s : State) (id : Nat) (place : JobPlace) : Drains s (cancelJob s id place) := by
  have written (u : State) (learn : Bool) : Drains u (u.writeCancelled id learn) :=
    .of_calls (.of_frame (writeCancelled_frame ..) rfl) (writeCancelled_frame ..) (by decide)
  have removed (p : JobPlace) (learn : Bool) : Drains s ((s.removeJob id p).writeCancelled id learn) :=
    (drains_removeJob s id p).trans (written ..)
  cases place with
  | analysing a =>
    unfold cancelJob
    dsimp only
    split
    · exact .refl s
    · exact Drains.trans (t := s.markCancelled a) ⟨rfl, fun _ h => h⟩ (written ..)
  | _ => unfold cancelJob; exact removed ..

theorem act_queueLaw {i : Instr} {n : Nat} {act : State → State × Reply} (h : requestAct i = some (n, act)) {s : State}
    (hs : QueueLaw s) : QueueLaw (act s).1 := by
  have frame := act_frame h s
  cases i
  case spanPut b =>
    cases h
    change QueueLaw (actSpanPut b s).1
    unfold actSpanPut editSpan createSpan
    repeat' split
    all_goals exact hs
  case spanHold id =>
    cases h
    change QueueLaw (actSpanHold id s).1
    unfold actSpanHold
    repeat' split
    · exact hs
    · exact QueueLaw.of_drains (s := s.leaveClassQueue id.toNat) (hs.of_drains (drains_leaveClassQueue ..))
        ⟨rfl, fun _ h => h⟩
    · exact hs
  case spanRetire id =>
    cases h
    change QueueLaw (actSpanRetire id s).1
    unfold actSpanRetire retireSpan
    repeat' split
    any_goals exact hs
    next p _ _ => exact (hs.of_drains (drains_removeJob s id.toNat p)).of_drains ⟨rfl, fun _ h => h⟩
  case spanLearn id =>
    cases h
    change QueueLaw (actSpanLearn id s).1
    unfold actSpanLearn
    repeat' split
    all_goals exact hs
  case testNow id =>
    cases h
    change QueueLaw (actTestNow id s).1
    unfold actTestNow
    repeat' split
    all_goals exact hs
  case testCancel id =>
    cases h
    change QueueLaw (actTestCancel id s).1
    unfold actTestCancel
    repeat' split
    all_goals first | exact hs | exact hs.of_drains (drains_cancelJob ..)
  case clockSet time =>
    cases h
    change QueueLaw (actClockSet time s).1
    unfold actClockSet
    split
    · exact hs
    · exact queueLaw_retestWindow
        (s := { s with timeBase := { s.timeBase with timeOfDay := time.toNat, nextAdvance := s.now + secondNs } }) hs []
  case windowSet o c =>
    cases h
    change QueueLaw (actWindowSet o c s).1
    unfold actWindowSet
    split
    · exact hs
    · exact queueLaw_retestWindow
        (s := { s with timeBase := { s.timeBase with openTime := o.toNat, closeTime := c.toNat } }) hs []
  case classSet cls weight preemptible =>
    cases h
    change QueueLaw (actClassSet cls weight preemptible s).1
    unfold actClassSet
    split <;> exact hs
  case coilSet bank length groupIndex =>
    cases h
    change QueueLaw (actCoilSet bank length groupIndex s).1
    have stored (l : Letter) (c : Coil) : QueueLaw (s.storeCoil l c) := by
      refine hs.of_drains ⟨(storeCoil_frame s l c).same .timeBase (by decide), fun d hd => ?_⟩
      rw [storeCoil_sched]
      exact hd
    unfold actCoilSet
    repeat' split
    all_goals first | exact hs | exact stored _ _
  case bankRestore bank sense =>
    cases h
    have restored (l : Letter) : QueueLaw (s.restoreBank l (senseValue sense)) :=
      hs.of_drains (.of_calls (calls_restoreBank ..) (restoreBank_frame ..) (by decide))
    change QueueLaw (actBankRestore bank sense s).1
    unfold actBankRestore
    repeat' split
    all_goals first | exact hs | exact restored _
  case restart => cases h; exact queueLaw_of_empty rfl
  all_goals
    refine hs.of_drains ⟨frame.same .timeBase (of_decide_eq_true rfl), fun c hc => ?_⟩
    rw [show _ = s.sched from frame.same .sched (of_decide_eq_true rfl)]
    exact hc

theorem queueLaw_inhibitChannel {s : State} (h : QueueLaw s) (ch : Letter) : QueueLaw (s.inhibitChannel ch) := by
  have returned {u : State} (hu : QueueLaw u) (w : Work) : QueueLaw (u.returnJob w) := by
    cases w with
    | verify own coil => exact hu
    | test kind id revision =>
      cases kind with
      | demand => exact hu
      | learn => exact hu
      | scheduled c =>
        unfold State.returnJob
        dsimp only
        split
        next isOpen => exact queueLaw_of_open isOpen
        next => exact hu
  unfold State.inhibitChannel
  split
  · exact h
  · exact returned (u := (s.dropFlight ch _ .inhibited).markChannel ch) h _
  · exact h

theorem event_queueLaw {i : Instr} {s t : State} (touches : Part.apart (eventParts i) [.timeBase, .sched] = false)
    (ran : exec i s = .next t) (hs : QueueLaw s) : QueueLaw t := by
  cases i <;> cases touches
  case inhibitAsserted =>
    change execInhibitAsserted s = .next t at ran
    unfold execInhibitAsserted at ran
    dsimp only at ran
    split at ran <;> cases ran
    · exact eitherOrder_keeps (P := QueueLaw) (fun _ hu => hu) (fun _ ch hu => queueLaw_inhibitChannel hu ch) hs
    · have asserted : QueueLaw { s with inputs := { s.inputs with inhibit := true } } := hs
      exact queueLaw_inhibitChannel (queueLaw_inhibitChannel asserted .A) .B
  case inhibitReleased =>
    change execInhibitReleased s = .next t at ran
    unfold execInhibitReleased at ran
    split at ran <;> cases ran <;> exact hs
  case timeAdvance =>
    cases ran
    exact queueLaw_retestWindow (s := { s.reach s.timeBase.nextAdvance with timeBase := s.timeBase.advanced }) hs _
  case settleCompletion l sense =>
    change execSettleCompletion l sense s = .next t at ran
    unfold execSettleCompletion at ran
    split at ran <;> cases ran
    · exact QueueLaw.of_drains (s := s.reach _) hs (.of_calls (calls_settle ..) (settle_frame ..) (by decide))
    · exact hs
  case guardCompletion ch sum =>
    change execGuardCompletion ch sum s = .next t at ran
    unfold execGuardCompletion at ran
    split at ran <;> cases ran
    · exact QueueLaw.of_drains (s := s.reach _) hs (.of_calls (calls_guardDone ..) (guardDone_frame ..) (by decide))
    all_goals exact hs
  case acquisitionCompletion ch =>
    change execAcquisitionCompletion ch s = .next t at ran
    unfold execAcquisitionCompletion at ran
    repeat' split at ran
    all_goals cases ran
    · exact QueueLaw.of_drains (s := s.reach _) hs (.of_calls (calls_firstDone ..) (firstDone_frame ..) (by decide))
    · exact hs
    · exact QueueLaw.of_drains (s := s.reach _) hs (.of_calls (calls_secondDone ..) (secondDone_frame ..) (by decide))
    all_goals exact hs
  case dispatchPass =>
    cases ran
    exact queueLaw_dispatchPass hs _
  case analysisCompletion =>
    change execAnalysisCompletion s = .next t at ran
    unfold execAnalysisCompletion at ran
    split at ran <;> cases ran
    · exact hs
    next a _ =>
      have disposed := dispose_frame (s.reach a.due) a
      have drains : Drains (s.reach a.due) ((s.reach a.due).dispose a) :=
        .of_calls (.of_frame disposed rfl) disposed (by decide)
      exact QueueLaw.of_drains (s := s.reach a.due) hs
        (drains.trans (.of_calls (calls_endAnalysis ..) (endAnalysis_frame ..) (by decide)))

theorem step_keeps_queueLaw {s t : State} (h : QueueLaw s) (ran : step s = .next t) : QueueLaw t := by
  have reads : Reads [.timeBase, .sched] QueueLaw := by
    intro u v same hu
    have sched : v.sched = u.sched := same .sched (by simp)
    exact hu.of_drains ⟨same .timeBase (by simp), fun c hc => by rw [sched]; exact hc⟩
  exact step_keeps reads rfl (fun _ _ _ => queueLaw_of_empty rfl) (fun i n act u kind hu => act_queueLaw kind hu)
    (fun i u v touches ran hu => event_queueLaw touches ran hu) h ran

end Sys2Proof.Machine
end

section
/-! PROOFS. The law of jobs and trace buffers: counting the jobs, and what each operation does to the counts. -/

namespace Sys2Proof.Machine

/-! ### The jobs, counted -/

/-- The dispatched jobs, by what tells them apart. -/
def State.flightIds (s : State) : List JobId := s.flights.map (fun f => f.work.id)

/-- The job at a channel, if it has one. -/
def Channel.jobs (c : Channel) : List JobId := c.activity.flight?.toList.map (fun f => f.work.id)

/-- The jobs of the analysis engine. -/
def Engine.jobs (e : Engine) : List JobId :=
  e.queue.map (fun f => f.work.id) ++ (e.current.map Analysis.flight).toList.map (fun f => f.work.id)

theorem count_jobIds (s : State) (j : JobId) : s.jobIds.count j = s.queuedIds.count j + s.flightIds.count j :=
  List.count_append ..

theorem count_flightIds (s : State) (j : JobId) :
    s.flightIds.count j = s.channels.a.jobs.count j + s.channels.b.jobs.count j + s.engine.jobs.count j := by
  simp only [State.flightIds, State.flights, Channel.jobs, Engine.jobs, List.map_append, List.count_append]
  omega

theorem mem_flightIds {s : State} {j : JobId} : j ∈ s.flightIds ↔ ∃ f ∈ s.flights, f.work.id = j := List.mem_map

/-- One channel's record replaced: its old job leaves the count, and its new one joins it. -/
theorem count_flightIds_set {s t : State} {ch : Letter} {c : Channel} (channels : t.channels = s.channels.set ch c)
    (engine : t.engine = s.engine) (j : JobId) :
    t.flightIds.count j + (s.channels.get ch).jobs.count j = s.flightIds.count j + c.jobs.count j := by
  rw [count_flightIds, count_flightIds, channels, engine]
  cases ch <;> simp only [Pair.set, Pair.get] <;> omega

/-! ### Operations that only end jobs, or move them on -/

/-- From `s` to `t` no job was added: every job was there, a job that names a span still names one, every held buffer was
held so, and a job that holds one is still dispatched. -/
structure OnlyEnds (s t : State) : Prop where
  count   : ∀ j, t.jobIds.count j ≤ s.jobIds.count j
  named   : ∀ id, JobId.span id ∈ t.jobIds → (∃ r ∈ s.spans, r.id = id) → ∃ r ∈ t.spans, r.id = id
  buffers : ∀ (i : Fin 4) h, t.buffers.get i = some h → ∃ g, s.buffers.get i = some g ∧ g.holder = h.holder ∧ g.role = h.role
  holders : ∀ (i : Fin 4) h, t.buffers.get i = some h → s.flightIds.count h.holder ≤ t.flightIds.count h.holder

theorem OnlyEnds.refl (s : State) : OnlyEnds s s :=
  ⟨fun _ => Nat.le_refl _, fun _ _ h => h, fun _ h held => ⟨h, held, rfl, rfl⟩, fun _ _ _ => Nat.le_refl _⟩

theorem OnlyEnds.mem {s t : State} (h : OnlyEnds s t) {j : JobId} (hj : j ∈ t.jobIds) : j ∈ s.jobIds :=
  List.count_pos_iff.mp (Nat.lt_of_lt_of_le (List.count_pos_iff.mpr hj) (h.count j))

theorem OnlyEnds.trans {s t u : State} (h : OnlyEnds s t) (k : OnlyEnds t u) : OnlyEnds s u := by
  refine ⟨fun j => (k.count j).trans (h.count j), fun id hid held => k.named id hid (h.named id (k.mem hid) held),
    fun i g hg => ?_, fun i g hg => ?_⟩
  · obtain ⟨m, hm, holder, role⟩ := k.buffers i g hg
    obtain ⟨n, hn, holder', role'⟩ := h.buffers i m hm
    exact ⟨n, hn, holder'.trans holder, role'.trans role⟩
  · obtain ⟨m, hm, holder, -⟩ := k.buffers i g hg
    have first := h.holders i m hm
    rw [holder] at first
    exact first.trans (k.holders i g hg)

theorem OnlyEnds.after {s t u : State} (k : OnlyEnds t u) (h : OnlyEnds s t) : OnlyEnds s u := h.trans k

theorem JobLaw.of_onlyEnds {s t : State} (law : JobLaw s) (h : OnlyEnds s t) : JobLaw t := by
  refine ⟨List.nodup_iff_count_le_one.mpr fun j => (h.count j).trans (List.nodup_iff_count_le_one.mp law.once j),
    fun id hid => h.named id hid (law.named id (h.mem hid)), fun i g hg => ?_, fun i k g m hg hm holder role => ?_⟩
  · obtain ⟨n, hn, holder, -⟩ := h.buffers i g hg
    have before : g.holder ∈ s.flightIds := holder ▸ mem_flightIds.mpr (law.held i n hn)
    exact mem_flightIds.mp
      (List.count_pos_iff.mp (Nat.lt_of_lt_of_le (List.count_pos_iff.mpr before) (h.holders i g hg)))
  · obtain ⟨g', hg', holderG, roleG⟩ := h.buffers i g hg
    obtain ⟨m', hm', holderM, roleM⟩ := h.buffers k m hm
    exact law.roles i k g' m' hg' hm' (holderG.trans (holder.trans holderM.symm)) (roleG.trans (role.trans roleM.symm))

/-- An operation under which the queues only lose jobs, the counts of the dispatched jobs stand, and no buffer is taken. -/
theorem OnlyEnds.of_stand {s t : State} (queued : ∀ j, t.queuedIds.count j ≤ s.queuedIds.count j)
    (flights : ∀ j, t.flightIds.count j = s.flightIds.count j)
    (buffers : ∀ (i : Fin 4) h, t.buffers.get i = some h → ∃ g, s.buffers.get i = some g ∧ g.holder = h.holder ∧ g.role = h.role)
    (core : t.core = s.core) : OnlyEnds s t :=
  ⟨fun j => by rw [count_jobIds, count_jobIds, flights]; exact Nat.add_le_add_right (queued j) _,
    fun _ _ held => held_of_core core held, buffers, fun _ _ _ => by rw [flights]⟩

theorem queuedIds_of_calls {s t : State} (h : Calls s t) : t.queuedIds = s.queuedIds := by
  obtain ⟨called, sched⟩ := h
  rw [State.queuedIds, sched, State.queuedIds]

theorem buffers_stand {s t : State} (h : t.buffers = s.buffers) (i : Fin 4) (g : Holding) (hg : t.buffers.get i = some g) :
    ∃ m, s.buffers.get i = some m ∧ m.holder = g.holder ∧ m.role = g.role := ⟨g, h ▸ hg, rfl, rfl⟩

theorem buffers_filter {s t : State} {p : Holding → Bool} (h : ∀ i : Fin 4, t.buffers.get i = (s.buffers.get i).filter p)
    (i : Fin 4) (g : Holding) (hg : t.buffers.get i = some g) :
    ∃ m, s.buffers.get i = some m ∧ m.holder = g.holder ∧ m.role = g.role := by
  rw [h, Option.filter_eq_some_iff] at hg
  exact ⟨g, hg.1, rfl, rfl⟩

theorem OnlyEnds.of_frame {l : List Part} {s t : State} (frame : KeepsBut l s t)
    (apart : Part.apart l [.directory, .sched, .channels, .engine, .buffers] = true) : OnlyEnds s t := by
  have same (p : Part) (hp : p ∈ [Part.directory, .sched, .channels, .engine, .buffers]) : p.Same s t :=
    frame.same p (fun hl => by have := List.all_eq_true.mp apart p hp; simp [hl] at this)
  have sched : t.sched = s.sched := same .sched (by simp)
  have channels : t.channels = s.channels := same .channels (by simp)
  have engine : t.engine = s.engine := same .engine (by simp)
  refine .of_stand (fun j => by rw [State.queuedIds, sched, State.queuedIds])
    (fun j => by rw [count_flightIds, count_flightIds, channels, engine]) (buffers_stand (same .buffers (by simp))) ?_
  exact core_of_directory (same .directory (by simp))

/-- A write to span records that leaves their cores. -/
theorem OnlyEnds.of_core {l : List Part} {s t : State} (frame : KeepsBut l s t)
    (apart : Part.apart l [.sched, .channels, .engine, .buffers] = true) (core : t.core = s.core) : OnlyEnds s t := by
  have same (p : Part) (hp : p ∈ [Part.sched, .channels, .engine, .buffers]) : p.Same s t :=
    frame.same p (fun hl => by have := List.all_eq_true.mp apart p hp; simp [hl] at this)
  have sched : t.sched = s.sched := same .sched (by simp)
  have channels : t.channels = s.channels := same .channels (by simp)
  have engine : t.engine = s.engine := same .engine (by simp)
  exact .of_stand (fun j => by rw [State.queuedIds, sched, State.queuedIds])
    (fun j => by rw [count_flightIds, count_flightIds, channels, engine]) (buffers_stand (same .buffers (by simp))) core

theorem onlyEnds_callDispatch (s : State) : OnlyEnds s s.callDispatch :=
  .of_stand (fun _ => Nat.le_refl _) (fun _ => rfl) (buffers_stand rfl) rfl

/-! ### Channels -/

theorem Channel.jobs_of_flight {c : Channel} {f : Flight} (busy : c.activity.flight? = some f) : c.jobs = [f.work.id] := by
  rw [Channel.jobs, busy]
  rfl

theorem Channel.jobs_of_none {c : Channel} (free : c.activity.flight? = none) : c.jobs = [] := by
  rw [Channel.jobs, free]
  rfl

theorem onlyEnds_setChannel (s : State) (ch : Letter) {c : Channel} (jobs : c.jobs = (s.channels.get ch).jobs) :
    OnlyEnds s (s.setChannel ch c) := by
  refine .of_stand (fun _ => Nat.le_refl _) (fun j => ?_) (buffers_stand rfl) rfl
  have counted := count_flightIds_set (s := s) (t := s.setChannel ch c) rfl rfl j
  rw [jobs] at counted
  exact Nat.add_right_cancel counted

/-- A job that a channel gives up leaves the count. -/
theorem count_dropFlight {s : State} {ch : Letter} {f : Flight} (busy : (s.channels.get ch).activity.flight? = some f)
    {rest : Activity} (rests : rest.flight? = none) (j : JobId) :
    (s.dropFlight ch f rest).flightIds.count j + [f.work.id].count j = s.flightIds.count j := by
  have counted := count_flightIds_set (givesUp_dropFlight s ch f rest).channels
    ((dropFlight_frame s ch f rest).same .engine (by decide)) j
  rw [Channel.jobs_of_flight busy, Channel.jobs_of_none (c := { s.channels.get ch with activity := rest, accumulator := [] })
    rests] at counted
  simpa using counted

theorem onlyEnds_dropFlight {s : State} {ch : Letter} {f : Flight} (busy : (s.channels.get ch).activity.flight? = some f)
    {rest : Activity} (rests : rest.flight? = none) : OnlyEnds s (s.dropFlight ch f rest) := by
  have counted := count_dropFlight busy rests
  have queued := queuedIds_of_calls (calls_dropFlight s ch f rest)
  have buffers := (givesUp_dropFlight s ch f rest).buffers
  refine ⟨fun j => ?_, fun id _ held => held_of_core (soft_dropFlight ..).core held, buffers_filter buffers, fun i h hh => ?_⟩
  · rw [count_jobIds, count_jobIds, queued, ← counted j]
    omega
  · rw [buffers, Option.filter_eq_some_iff] at hh
    have other : f.work.id ≠ h.holder := by simpa using Ne.symm (bne_iff_ne.mp hh.2)
    have absent : [f.work.id].count h.holder = 0 := List.count_eq_zero.mpr (by simpa using Ne.symm other)
    have := counted h.holder
    omega

theorem State.flight?_restActivity (s : State) : s.restActivity.flight? = none := by
  unfold State.restActivity
  split <;> rfl

theorem onlyEnds_abortChannel (s : State) (ch : Letter) : OnlyEnds s (s.abortChannel ch) := by
  unfold State.abortChannel
  split
  next busy => exact onlyEnds_dropFlight (by rw [busy]; rfl) s.flight?_restActivity
  next => exact .refl s
  next => exact .refl s

theorem onlyEnds_endWithOutcome (s : State) (w : Work) (o : LastOutcome) : OnlyEnds s (s.endWithOutcome w o) :=
  .of_core (endWithOutcome_frame ..) rfl (soft_endWithOutcome ..).core

theorem onlyEnds_settle (s : State) (l : Letter) (sense : Option Nat) : OnlyEnds s (s.settle l sense) := by
  have written (b : Bank) : OnlyEnds s (s.setBank l b) := .of_frame (setBank_frame ..) rfl
  unfold State.settle
  dsimp only
  split
  · split <;> exact written _
  split
  next ch _ _ stage f busy =>
    have flight : (s.channels.get ch).activity.flight? = some f := by rw [busy]; rfl
    split
    · exact (written _).trans (onlyEnds_setChannel (s.setBank l _) ch
        ((Channel.jobs_of_flight rfl).trans (Channel.jobs_of_flight flight).symm))
    · have frame : KeepsBut [.banks, .directory] s
          ((s.setBank l ((s.banks.get l).faulted sense)).endWithOutcome f.work .bankFault) :=
        ((setBank_frame ..).mono (by decide)).trans ((endWithOutcome_frame ..).mono (by decide))
      have channels := frame.same .channels (by decide)
      exact ((written _).trans (onlyEnds_endWithOutcome ..)).trans
        (onlyEnds_dropFlight (by rw [channels]; exact flight) rfl)
  all_goals split <;> exact written _

theorem onlyEnds_takeBank (s : State) (ch l : Letter) (position : Nat) (sense : Option Nat) :
    OnlyEnds s (s.takeBank ch l position sense) := by
  have written (b : Bank) : OnlyEnds s (s.setBank l b) := .of_frame (setBank_frame ..) rfl
  unfold State.takeBank
  dsimp only
  split
  · split
    · exact (written _).trans (onlyEnds_settle ..)
    · exact written _
  · split <;> exact written _

/-! ### The engine -/

/-- A take moves the job at the head of the queue on, and loses none. -/
theorem count_takeHead (s : State) (j : JobId) : s.takeHead.engine.jobs.count j = s.engine.jobs.count j := by
  unfold State.takeHead
  split
  next f rest idle queue =>
    split
    · simp [Engine.jobs, idle, queue, List.count_cons]
    · rfl
  next => rfl

theorem onlyEnds_takeHead (s : State) : OnlyEnds s s.takeHead := by
  have frame := takeHead_frame s
  refine .of_stand (fun _ => ?_) (fun j => ?_) (buffers_stand (frame.same .buffers (by decide))) (soft_takeHead s).core
  · rw [queuedIds_of_calls (calls_takeHead s)]
  · rw [count_flightIds, count_flightIds, count_takeHead,
      show s.takeHead.channels = s.channels from frame.same .channels (by decide)]

theorem Engine.count_jobs_join (e : Engine) (g : Flight) (j : JobId) :
    (Engine.jobs { e with queue := e.queue ++ [g] }).count j = e.jobs.count j + [g.work.id].count j := by
  simp only [Engine.jobs, List.map_append, List.count_append, List.map_cons, List.map_nil]
  omega

theorem onlyEnds_handOn {s : State} {ch : Letter} {f g : Flight} (busy : (s.channels.get ch).activity.flight? = some f)
    (same : g.work = f.work) : OnlyEnds s (s.handOn ch g) := by
  unfold State.handOn
  refine (onlyEnds_takeHead _).after ?joined
  refine .of_stand (fun _ => Nat.le_refl _) (fun j => ?_) (buffers_stand rfl) rfl
  have left := count_flightIds_set (s := s)
    (t := s.setChannel ch { s.channels.get ch with activity := .idle, accumulator := [] }) rfl rfl j
  rw [Channel.jobs_of_flight busy, ← same, Channel.jobs_of_none (c := { s.channels.get ch with
    activity := .idle, accumulator := [] }) rfl, count_flightIds] at left
  rw [count_flightIds]
  refine Eq.trans (congrArg (_ + ·) (Engine.count_jobs_join s.engine _ j)) ?_
  rw [← Nat.add_assoc]
  exact left

theorem onlyEnds_free1310 (s : State) (j : JobId) : OnlyEnds s (s.free1310 j) :=
  .of_stand (fun _ => Nat.le_refl _) (fun _ => rfl) (buffers_filter (buffers_free1310 s j)) rfl

theorem onlyEnds_fillBuffer (s : State) (j : JobId) (r : Role) (t : Trace) : OnlyEnds s (s.fillBuffer j r t) := by
  refine .of_stand (fun _ => Nat.le_refl _) (fun _ => rfl) (fun i h hh => ?_) rfl
  rw [buffers_fillBuffer, Option.map_eq_some_iff] at hh
  obtain ⟨g, hg, rfl⟩ := hh
  exact ⟨g, hg, by split <;> rfl, by split <;> rfl⟩

theorem onlyEnds_cut1310 {s : State} {ch : Letter} {f : Flight} (busy : (s.channels.get ch).activity.flight? = some f) :
    OnlyEnds s (s.cut1310 ch f) := by
  unfold State.cut1310
  split
  · exact (onlyEnds_fillBuffer ..).trans (onlyEnds_handOn (s := s.fillBuffer ..) (f := f) busy rfl)
  · exact (onlyEnds_free1310 ..).trans (onlyEnds_handOn (s := s.free1310 _) (f := f) busy rfl)

/-- A channel's job goes on to another stage. -/
theorem onlyEnds_stage {s : State} {ch : Letter} {f : Flight} (busy : (s.channels.get ch).activity.flight? = some f)
    {c : Channel} {g : Flight} (now : c.activity.flight? = some g) (same : g.work = f.work) :
    OnlyEnds s (s.setChannel ch c) :=
  onlyEnds_setChannel s ch (by rw [Channel.jobs_of_flight now, Channel.jobs_of_flight busy, same])

theorem onlyEnds_closeAtChannel (s : State) (ch : Letter) : OnlyEnds s (s.closeAtChannel ch) := by
  have drops {stage : Stage} {f : Flight} (busy : (s.channels.get ch).activity = .busy stage f) :
      OnlyEnds s (s.drop1310 ch stage f) :=
    (onlyEnds_free1310 ..).after (onlyEnds_stage (f := f) (by rw [busy]; rfl) rfl rfl)
  unfold State.closeAtChannel
  split
  next => exact .refl s
  next => exact .refl s
  next busy => exact onlyEnds_cut1310 (by rw [busy]; rfl)
  all_goals
    split
    · exact drops (by assumption)
    · exact .refl s

theorem onlyEnds_guardDone {s : State} {ch : Letter} {f : Flight} (busy : (s.channels.get ch).activity.flight? = some f)
    (level : Nat) : OnlyEnds s (s.guardDone ch f level) := by
  have starts {u : State} (frame : KeepsBut [.directory, .buffers, .sched] s u) (g : Flight) (same : g.work = f.work) :
      OnlyEnds u (u.startFiring ch g) := by
    have channels : u.channels = s.channels := frame.same .channels (by decide)
    exact onlyEnds_stage (f := f) (by rw [channels]; exact busy) rfl same
  have ofWork (g : State → State) (frame : KeepsBut [.directory] s (g s)) (core : (g s).core = s.core) :
      OnlyEnds s (g s) := .of_core frame rfl core
  unfold State.guardDone
  split
  · have written := endWithOutcome_frame s f.work .liveOverload
    exact (onlyEnds_endWithOutcome ..).trans
      (onlyEnds_dropFlight (by rw [written.same .channels (by decide)]; exact busy) rfl)
  split
  · have found : KeepsBut [.directory, .buffers, .sched] s (s.liveFound f.work) := (liveFound_frame ..).mono (by decide)
    have writes : OnlyEnds s (s.liveFound f.work) := by
      refine .of_core (liveFound_frame ..) rfl ?_
      cases f.work with
      | test kind id revision => exact core_modifySpan s id (fun _ => rfl)
      | verify own coil => rfl
    unfold State.guardLive
    dsimp only
    split
    · exact (writes.trans (onlyEnds_free1310 ..)).trans (starts (found.trans ((free1310_frame ..).mono (by decide))) _ rfl)
    · exact writes.trans (starts found _ rfl)
  · have writes : OnlyEnds s (s.liveGone f.work) := .of_core (liveGone_frame ..) rfl (soft_liveGone ..).core
    exact writes.trans (starts ((liveGone_frame ..).mono (by decide)) _ rfl)

theorem onlyEnds_firstDone {s : State} {ch : Letter} {f : Flight} (busy : (s.channels.get ch).activity.flight? = some f) :
    OnlyEnds s (s.firstDone ch f) := by
  have written : OnlyEnds s (s.writeTrace ch f .nm1625) := onlyEnds_fillBuffer ..
  unfold State.firstDone
  dsimp only
  split
  · exact written.trans (onlyEnds_stage (s := s.writeTrace ch f .nm1625) (f := f) busy rfl rfl)
  · exact written.trans (onlyEnds_handOn (s := s.writeTrace ch f .nm1625) busy rfl)

theorem onlyEnds_secondDone {s : State} {ch : Letter} {f : Flight} (busy : (s.channels.get ch).activity.flight? = some f) :
    OnlyEnds s (s.secondDone ch f) :=
  (onlyEnds_fillBuffer ..).trans (onlyEnds_handOn (s := s.writeTrace ch f .nm1310) busy rfl)

/-- From `s` to `t` the jobs of `j` have left the engine with the buffers that `j` held; the other jobs stand. -/
theorem OnlyEnds.of_engine {s t : State} {j : JobId} (frame : KeepsBut [.buffers, .sched, .engine] s t) (calls : Calls s t)
    (fewer : ∀ k, t.engine.jobs.count k ≤ s.engine.jobs.count k)
    (others : ∀ k, k ≠ j → t.engine.jobs.count k = s.engine.jobs.count k)
    (buffers : ∀ i : Fin 4, t.buffers.get i = (s.buffers.get i).filter (fun h => h.holder != j)) : OnlyEnds s t := by
  have channels : t.channels = s.channels := frame.same .channels (by decide)
  have core : t.core = s.core := core_of_directory (frame.same .directory (by decide))
  refine ⟨fun k => ?_, fun id _ held => held_of_core core held, buffers_filter buffers, fun i h hh => ?_⟩
  · rw [count_jobIds, count_jobIds, queuedIds_of_calls calls, count_flightIds, count_flightIds, channels]
    have := fewer k
    omega
  · rw [buffers, Option.filter_eq_some_iff] at hh
    rw [count_flightIds, count_flightIds, channels, others h.holder (bne_iff_ne.mp hh.2)]

/-- A job that waits for the engine leaves its queue with its buffers. -/
theorem onlyEnds_leaveAnalysisQueue (s : State) (j : JobId) : OnlyEnds s (s.leaveAnalysisQueue j) := by
  have ids (k : JobId) : ((s.engine.queue.filter (fun f => f.work.id != j)).map (fun f => f.work.id)).count k =
      ((s.engine.queue.map (fun f => f.work.id)).filter (fun i => i != j)).count k := by
    rw [List.filter_map]
    rfl
  have freed : (s.freeBuffersOf j).engine = s.engine := rfl
  unfold State.leaveAnalysisQueue
  refine (onlyEnds_takeHead _).after (.of_engine (j := j) ?frame ⟨true, rfl⟩ (fun k => ?fewer) (fun k other => ?others)
    (buffers_freeBuffersOf s j))
  case frame => exact keepsBut_of_all (fun p => by cases p <;> first | (left; simp; done) | exact .inr rfl)
  case fewer =>
    simp only [Engine.jobs, List.count_append, freed, ids]
    exact Nat.add_le_add_right (List.filter_sublist.count_le k) _
  case others =>
    simp only [Engine.jobs, List.count_append, freed, ids]
    rw [List.count_filter (by simpa using other)]

/-- The engine's job ends with its buffers. -/
theorem onlyEnds_endAnalysis {s : State} {a : Analysis} (current : s.engine.current = some a) :
    OnlyEnds s (s.endAnalysis a) := by
  unfold State.endAnalysis
  refine (onlyEnds_takeHead _).after (.of_engine (j := a.flight.work.id) ?frame ⟨true, rfl⟩ (fun k => ?fewer)
    (fun k other => ?others) (buffers_freeBuffersOf s a.flight.work.id))
  case frame => exact keepsBut_of_all (fun p => by cases p <;> first | (left; simp; done) | exact .inr rfl)
  case fewer =>
    simp only [Engine.jobs, List.count_append, current]
    exact Nat.add_le_add_left (by simp) _
  case others =>
    simp only [Engine.jobs, List.count_append, current]
    simp [Ne.symm other]

/-! ### Queues -/

/-- The verify job in the place of a channel. -/
def placeJobs (waiting : Bool) (own : Letter) : List JobId := if waiting then [.verify own] else []

/-- The jobs of the class queues, the demand queue and the verify places. -/
def queueJobs (classQueues : Quad (List Nat)) (demandQueue : List DemandJob) (places : Pair Bool) : List JobId :=
  classQueues.toList.flatten.map .span ++ demandQueue.map (fun d => .span d.span) ++ placeJobs places.a .A ++
    placeJobs places.b .B

theorem queuedIds_eq (s : State) :
    s.queuedIds = queueJobs s.sched.classQueues s.sched.demandQueue s.sched.verifyPlaces := rfl

theorem count_queueJobs (q : Quad (List Nat)) (d : List DemandJob) (p : Pair Bool) (j : JobId) :
    (queueJobs q d p).count j = (q.toList.flatten.map JobId.span).count j + (d.map (fun d => JobId.span d.span)).count j +
      (placeJobs p.a .A).count j + (placeJobs p.b .B).count j := by
  simp only [queueJobs, List.count_append]

/-- The class queues without a span hold the jobs of the other spans. -/
theorem flatten_leaveClassQueue (q : Quad (List Nat)) (id : Nat) :
    (q.map (fun l => l.filter (fun i => i != id))).toList.flatten = q.toList.flatten.filter (fun i => i != id) := by
  simp [Quad.map, Quad.toList, List.filter_append]

/-- What is taken out of a list is counted once less, where it stands there. -/
theorem count_filter_ne {α : Type} (f : α → JobId) {l : List α} {j : JobId} {p : α → Bool}
    (taken : ∀ x, p x = true ↔ f x ≠ j) (mem : j ∈ l.map f) (k : JobId) :
    ((l.filter p).map f).count k + [j].count k ≤ (l.map f).count k := by
  have within : ((l.filter p).map f).Sublist (l.map f) := List.filter_sublist.map f
  by_cases same : k = j
  · have gone : ((l.filter p).map f).count j = 0 := by
      rw [List.count_eq_zero]
      intro hj
      obtain ⟨x, hx, names⟩ := List.mem_map.mp hj
      exact (taken x).mp (List.mem_filter.mp hx).2 names
    subst same
    have := List.count_pos_iff.mpr mem
    rw [gone, List.count_singleton_self]
    omega
  · rw [List.count_eq_zero.mpr (show k ∉ [j] by simpa using same), Nat.add_zero]
    exact within.count_le k

theorem queued_leaveClassQueue {s : State} {id : Nat} (mem : id ∈ s.sched.classQueues.toList.flatten) (k : JobId) :
    (s.leaveClassQueue id).queuedIds.count k + [JobId.span id].count k ≤ s.queuedIds.count k := by
  have left := count_filter_ne JobId.span (p := fun i => i != id) (by simp) (List.mem_map_of_mem mem) k
  rw [← flatten_leaveClassQueue] at left
  have after : (s.leaveClassQueue id).queuedIds = queueJobs (s.sched.classQueues.map (fun l => l.filter (fun i => i != id)))
      s.sched.demandQueue s.sched.verifyPlaces := rfl
  rw [after, queuedIds_eq, count_queueJobs, count_queueJobs]
  omega

theorem queued_leaveDemandQueue {s : State} {id : Nat} (mem : ∃ d ∈ s.sched.demandQueue, d.span = id) (k : JobId) :
    (s.leaveDemandQueue id).queuedIds.count k + [JobId.span id].count k ≤ s.queuedIds.count k := by
  obtain ⟨d, hd, rfl⟩ := mem
  have left := count_filter_ne (fun d : DemandJob => JobId.span d.span) (p := fun e => e.span != d.span) (by simp)
    (List.mem_map_of_mem hd) k
  have after : (s.leaveDemandQueue d.span).queuedIds = queueJobs s.sched.classQueues
      (s.sched.demandQueue.filter (fun e => e.span != d.span)) s.sched.verifyPlaces := rfl
  rw [after, queuedIds_eq, count_queueJobs, count_queueJobs]
  omega

theorem count_placeJobs (own : Letter) (k : JobId) :
    (placeJobs true own).count k = (placeJobs false own).count k + [JobId.verify own].count k := by
  simp [placeJobs]

theorem queued_leaveVerifyPlace {s : State} {own : Letter} (waits : s.sched.verifyPlaces.get own = true) (k : JobId) :
    (s.unqueue (.verify own)).queuedIds.count k + [JobId.verify own].count k ≤ s.queuedIds.count k := by
  have after : (s.unqueue (.verify own)).queuedIds = queueJobs s.sched.classQueues s.sched.demandQueue
      (s.sched.verifyPlaces.set own false) := rfl
  rw [after, queuedIds_eq, count_queueJobs, count_queueJobs]
  cases own
  · change s.sched.verifyPlaces.a = true at waits
    rw [waits, count_placeJobs]
    change _ + _ + (placeJobs false .A).count k + (placeJobs s.sched.verifyPlaces.b .B).count k + _ ≤ _
    omega
  · change s.sched.verifyPlaces.b = true at waits
    rw [waits, count_placeJobs]
    change _ + _ + (placeJobs s.sched.verifyPlaces.a .A).count k + (placeJobs false .B).count k + _ ≤ _
    omega

/-- The job waits in its queue or its verify place. -/
def Job.WaitsIn (s : State) : Job → Prop
  | .test (.scheduled c) id => id ∈ s.sched.classQueues.get c
  | .test .demand id => { span := id, learn := false } ∈ s.sched.demandQueue
  | .test .learn id => { span := id, learn := true } ∈ s.sched.demandQueue
  | .verify own => s.sched.verifyPlaces.get own = true

theorem Quad.mem_flatten {q : Quad (List Nat)} {i : Nat} : i ∈ q.toList.flatten ↔ ∃ c : Fin 4, i ∈ q.get c := by
  simp only [Quad.toList, List.mem_flatten, List.mem_cons, List.not_mem_nil, or_false]
  constructor
  · rintro ⟨l, rfl | rfl | rfl | rfl, hi⟩
    exacts [⟨0, hi⟩, ⟨1, hi⟩, ⟨2, hi⟩, ⟨3, hi⟩]
  · rintro ⟨c, hi⟩
    exact ⟨q.get c, by fin_cases c <;> simp [Quad.get], hi⟩

theorem count_unqueue {s : State} {j : Job} (waits : j.WaitsIn s) (k : JobId) :
    (s.unqueue j).queuedIds.count k + [j.id].count k ≤ s.queuedIds.count k := by
  cases j with
  | verify own => exact queued_leaveVerifyPlace waits k
  | test kind id =>
    cases kind with
    | scheduled c => exact queued_leaveClassQueue (Quad.mem_flatten.mpr ⟨c, waits⟩) k
    | demand => exact queued_leaveDemandQueue ⟨_, waits, rfl⟩ k
    | learn => exact queued_leaveDemandQueue ⟨_, waits, rfl⟩ k

theorem count_headOfClassQueue (s : State) (c : Fin 4) (id : Nat) (k : JobId) :
    (s.headOfClassQueue c id).queuedIds.count k = s.queuedIds.count k + [JobId.span id].count k := by
  have joined : ((s.sched.classQueues.set c (id :: s.sched.classQueues.get c)).toList.flatten.map JobId.span).count k =
      (s.sched.classQueues.toList.flatten.map JobId.span).count k + [JobId.span id].count k := by
    fin_cases c <;> simp [Quad.set, Quad.get, Quad.toList, List.count_cons] <;> omega
  have after : (s.headOfClassQueue c id).queuedIds = queueJobs (s.sched.classQueues.set c
      (id :: s.sched.classQueues.get c)) s.sched.demandQueue s.sched.verifyPlaces := rfl
  rw [after, queuedIds_eq, count_queueJobs, count_queueJobs, joined]
  omega

theorem count_headOfDemandQueue (s : State) (d : DemandJob) (k : JobId) :
    (s.headOfDemandQueue d).queuedIds.count k = s.queuedIds.count k + [JobId.span d.span].count k := by
  have after : (s.headOfDemandQueue d).queuedIds = queueJobs s.sched.classQueues (d :: s.sched.demandQueue)
      s.sched.verifyPlaces := rfl
  rw [after, queuedIds_eq, count_queueJobs, count_queueJobs, List.map_cons, List.count_cons, List.count_singleton]
  omega

theorem count_tailOfDemandQueue (s : State) (d : DemandJob) (k : JobId) :
    (s.tailOfDemandQueue d).queuedIds.count k = s.queuedIds.count k + [JobId.span d.span].count k := by
  have after : (s.tailOfDemandQueue d).queuedIds = queueJobs s.sched.classQueues (s.sched.demandQueue ++ [d])
      s.sched.verifyPlaces := rfl
  rw [after, queuedIds_eq, count_queueJobs, count_queueJobs, List.map_append, List.count_append, List.map_singleton]
  omega

end Sys2Proof.Machine
end

section
/-! PROOFS. Where a span's job stands; a dispatch, a pass and a window open under the law of jobs. -/

namespace Sys2Proof.Machine

/-! ### Where a span's job stands (R169) -/

theorem Work.tests_iff (w : Work) (id : Nat) : w.tests id = true ↔ w.id = .span id := by
  cases w <;> simp [Work.tests, Work.id]

/-- The span's job stands there. -/
def JobPlace.HoldsJobOf (s : State) (id : Nat) : JobPlace → Prop
  | .classQueue c => id ∈ s.sched.classQueues.get c
  | .demandQueue learn => { span := id, learn := learn } ∈ s.sched.demandQueue
  | .channel ch f => (s.channels.get ch).activity.flight? = some f ∧ f.work.id = .span id
  | .waiting f => f ∈ s.engine.queue ∧ f.work.id = .span id
  | .analysing a => s.engine.current = some a ∧ a.flight.work.id = .span id

theorem ifTests_eq_some {id : Nat} {f g : Flight} : f.ifTests id = some g ↔ f = g ∧ f.work.id = .span id := by
  unfold Flight.ifTests
  split
  next tests => simp [(Work.tests_iff ..).mp tests]
  next tests => simp [mt (Work.tests_iff ..).mpr tests]

theorem holdsJobOf_of_jobPlace {s : State} {id : Nat} {p : JobPlace} (h : s.jobPlace id = some p) : p.HoldsJobOf s id := by
  unfold State.jobPlace at h
  simp only [Option.or_eq_some_iff, Option.map_eq_some_iff, Option.bind_eq_some_iff] at h
  rcases h with ⟨c, found, rfl⟩ | ⟨-, ⟨d, found, rfl⟩ | ⟨-, ⟨f, ⟨g, busy, tests⟩, rfl⟩ | ⟨-, ⟨f, ⟨g, busy, tests⟩, rfl⟩ |
    ⟨-, ⟨f, found, rfl⟩ | ⟨-, a, current, found⟩⟩⟩⟩⟩
  · exact List.contains_iff_mem.mp (List.find?_some found :)
  · have names : d.span = id := by simpa using List.find?_some found
    subst names
    exact List.mem_of_find?_eq_some found
  · obtain ⟨rfl, work⟩ := ifTests_eq_some.mp tests
    exact ⟨busy, work⟩
  · obtain ⟨rfl, work⟩ := ifTests_eq_some.mp tests
    exact ⟨busy, work⟩
  · exact ⟨List.mem_of_find?_eq_some found, (Work.tests_iff ..).mp (List.find?_some found :)⟩
  · split at found <;> cases found
    next tests => exact ⟨current, (Work.tests_iff ..).mp tests⟩

/-- A span without a job is in no list of jobs. -/
theorem notMem_jobIds_of_jobPlace {s : State} {id : Nat} (h : s.jobPlace id = none) : JobId.span id ∉ s.jobIds := by
  unfold State.jobPlace at h
  simp only [Option.or_eq_none_iff, Option.map_eq_none_iff, Option.bind_eq_none_iff] at h
  obtain ⟨cls, demand, chA, chB, queue, current⟩ := h
  have channel (c : Channel) (h : ∀ f, c.activity.flight? = some f → f.ifTests id = none) : JobId.span id ∉ c.jobs := by
    intro mem
    simp only [Channel.jobs, List.mem_map, Option.mem_toList] at mem
    obtain ⟨f, busy, work⟩ := mem
    have := ifTests_eq_some.mpr ⟨rfl, work⟩
    rw [h f busy] at this
    cases this
  rw [← List.count_eq_zero, count_jobIds, queuedIds_eq, count_queueJobs, count_flightIds]
  have inQueues : (s.sched.classQueues.toList.flatten.map JobId.span).count (.span id) = 0 := by
    rw [List.count_eq_zero]
    intro mem
    obtain ⟨i, hi, same⟩ := List.mem_map.mp mem
    cases same
    obtain ⟨c, hc⟩ := Quad.mem_flatten.mp hi
    have := List.find?_eq_none.mp cls c (by fin_cases c <;> simp)
    exact this (List.contains_iff_mem.mpr hc)
  have inDemand : (s.sched.demandQueue.map (fun d => JobId.span d.span)).count (.span id) = 0 := by
    rw [List.count_eq_zero]
    intro mem
    obtain ⟨d, hd, same⟩ := List.mem_map.mp mem
    cases same
    simpa using List.find?_eq_none.mp demand d hd
  have inPlace (b : Bool) (own : Letter) : (placeJobs b own).count (.span id) = 0 := by
    cases b <;> simp [placeJobs]
  have inEngine : s.engine.jobs.count (.span id) = 0 := by
    rw [List.count_eq_zero]
    intro mem
    simp only [Engine.jobs, List.mem_append, List.mem_map, Option.mem_toList, Option.map_eq_some_iff] at mem
    rcases mem with ⟨f, hf, work⟩ | ⟨f, ⟨a, ha, rfl⟩, work⟩
    · exact List.find?_eq_none.mp queue f hf ((Work.tests_iff ..).mpr work)
    · have := current a ha
      rw [if_pos ((Work.tests_iff ..).mpr work)] at this
      cases this
  rw [inQueues, inDemand, inPlace, inPlace, inEngine, List.count_eq_zero.mpr (channel _ chA),
    List.count_eq_zero.mpr (channel _ chB)]

/-! ### The job chosen waits (R176) -/

theorem waitsIn_of_choose {s : State} {ch : Letter} {j : Job} (h : (s.choose ch).job = some j) : j.WaitsIn s := by
  have cls {c : Fin 4} (found : s.classChoice ch c = some j) : j.WaitsIn s := by
    obtain ⟨id, hid, rfl⟩ := List.mem_map.mp (List.mem_of_find?_eq_some found)
    exact hid
  have demand (found : s.demandChoice ch = some j) : j.WaitsIn s := by
    obtain ⟨⟨span, learn⟩, hd, rfl⟩ := List.mem_map.mp (List.mem_of_find?_eq_some found)
    cases learn <;> exact hd
  unfold State.choose at h
  split at h
  next k first =>
    cases h
    rcases Option.or_eq_some_iff.mp first with first | ⟨-, strict⟩
    · rcases Option.or_eq_some_iff.mp first with verify | ⟨-, found⟩
      · rw [State.verifyChoice, Option.ite_none_right_eq_some] at verify
        obtain ⟨both, same⟩ := verify
        cases same
        exact (Bool.and_eq_true_iff.mp both).1
      · exact demand found
    · obtain ⟨c, -, found⟩ := List.exists_of_findSome?_eq_some strict
      exact cls found
  next =>
    unfold State.weightedChoice at h
    dsimp only at h
    split at h
    · exact cls h
    split at h
    · exact cls h
    · cases h

/-! ### A dispatch -/

theorem takesUp_buffers {s t : State} {j : JobId} {plan : Plan} {i k : Fin 4} (takes : TakesBuffers s t j plan i k)
    (stand : ∀ m, m ≠ i → (plan = .dual → m ≠ k) → t.buffers.get m = s.buffers.get m) (m : Fin 4) (h : Holding)
    (held : t.buffers.get m = some h) :
    s.buffers.get m = some h ∨ (h.holder = j ∧ ((m = i ∧ h.role = .nm1625) ∨ (m = k ∧ h.role = .nm1310))) := by
  by_cases first : m = i
  · subst first
    rw [takes.first.2] at held
    cases held
    exact .inr ⟨rfl, .inl ⟨rfl, rfl⟩⟩
  by_cases second : plan = .dual ∧ m = k
  · obtain ⟨dual, rfl⟩ := second
    rw [(takes.second dual).2] at held
    cases held
    exact .inr ⟨rfl, .inr ⟨rfl, rfl⟩⟩
  · rw [stand m first (fun dual same => second ⟨dual, same⟩)] at held
    exact .inl held

/-- From `s` to `t` the job has left its queue for a channel that had none. -/
theorem count_started {s : State} {ch : Letter} {j : Job} (waits : j.WaitsIn s)
    (free : (s.channels.get ch).activity.flight? = none) (k : JobId) :
    (s.started ch j).queuedIds.count k + [j.id].count k ≤ s.queuedIds.count k ∧
      (s.started ch j).flightIds.count k = s.flightIds.count k + [j.id].count k := by
  constructor
  · have queued : (s.started ch j).queuedIds = (s.unqueue j).queuedIds := by
      have sched : (s.started ch j).sched = (s.unqueue j).sched :=
        ((takeBuffers_frame (s.unqueue j) j.id (s.planFor ch j)).same .sched (by decide) :)
      rw [State.queuedIds, sched, State.queuedIds]
    rw [queued]
    exact count_unqueue waits k
  · have frame : KeepsBut [.sched, .buffers] s ((s.unqueue j).takeBuffers j.id (s.planFor ch j)) :=
      ((unqueue_frame s j).mono (by decide)).trans ((takeBuffers_frame ..).mono (by decide))
    have channels : (s.started ch j).channels =
        s.channels.set ch { s.channels.get ch with activity := .busy .switching (s.flightOf ch j) } := by
      change ((s.unqueue j).takeBuffers j.id (s.planFor ch j)).channels.set ch
        { ((s.unqueue j).takeBuffers j.id (s.planFor ch j)).channels.get ch with
          activity := .busy .switching (s.flightOf ch j) } = _
      rw [show _ = s.channels from frame.same .channels (by decide)]
    have counted := count_flightIds_set channels ((started_frame s ch j).same .engine (by decide)) k
    rw [Channel.jobs_of_none free, Channel.jobs_of_flight (f := s.flightOf ch j) rfl] at counted
    have work : (s.flightOf ch j).work.id = j.id := (startsAs_flightOf s ch j).id
    rw [work] at counted
    simpa using counted

theorem JobLaw.started {s : State} (law : JobLaw s) {ch : Letter} {j : Job} (waits : j.WaitsIn s)
    (free : (s.channels.get ch).activity.flight? = none) (eligible : EligibleOn s ch j) : JobLaw (s.started ch j) := by
  have counted := count_started waits free
  have within (k : JobId) : (s.started ch j).jobIds.count k ≤ s.jobIds.count k := by
    have := counted k
    rw [count_jobIds, count_jobIds]
    omega
  have atMostOnce := List.nodup_iff_count_le_one.mp law.once
  have directory : (s.started ch j).directory = s.directory := (started_frame s ch j).same .directory (by decide)
  have undispatched : j.id ∉ s.flightIds := by
    intro mem
    have := List.count_pos_iff.mpr mem
    have queued := (counted j.id).1
    have once := atMostOnce j.id
    rw [count_jobIds] at once
    rw [List.count_singleton_self] at queued
    omega
  have unheld {i : Fin 4} {h : Holding} (held : s.buffers.get i = some h) : h.holder ≠ j.id :=
    fun same => undispatched (same ▸ mem_flightIds.mpr (law.held i h held))
  have fits : (s.planFor ch j).buffers ≤ s.freeBufferCount := by
    rw [buffers_planFor, ← length_freeBuffers]
    exact eligible.buffers
  have buffersUnqueue : (s.unqueue j).buffers = s.buffers := (unqueue_frame s j).same .buffers (by decide)
  obtain ⟨i, k, takes, stand⟩ := takesBuffers_takeBuffers (s := s.unqueue j) (j := j.id) (plan := s.planFor ch j)
    (by rw [State.freeBufferCount, buffersUnqueue]; exact fits)
  have buffers (m : Fin 4) (h : Holding) (held : (s.started ch j).buffers.get m = some h) :
      s.buffers.get m = some h ∨
        (h.holder = j.id ∧ ((m = i ∧ h.role = .nm1625) ∨ (m = k ∧ h.role = .nm1310))) := by
    rw [← buffersUnqueue]
    exact takesUp_buffers takes stand m h held
  refine ⟨List.nodup_iff_count_le_one.mpr fun k => (within k).trans (atMostOnce k), fun id mem => ?_, fun m h held => ?_,
    fun m n h g hm hn holder role => ?_⟩
  · rw [State.spans, directory]
    exact law.named id
      (List.count_pos_iff.mp (Nat.lt_of_lt_of_le (List.count_pos_iff.mpr mem) (within (.span id))))
  · refine mem_flightIds.mp (List.count_pos_iff.mp ?_)
    rw [(counted h.holder).2]
    rcases buffers m h held with before | ⟨holder, -⟩
    · have := List.count_pos_iff.mpr (mem_flightIds.mpr (law.held m h before))
      omega
    · rw [holder, List.count_singleton_self]
      omega
  · rcases buffers m h hm with before | ⟨hj, new⟩ <;> rcases buffers n g hn with before' | ⟨gj, new'⟩
    · exact law.roles m n h g before before' holder role
    · exact absurd (holder.trans gj) (unheld before)
    · exact absurd (holder.symm.trans hj) (unheld before')
    · rcases new with ⟨rfl, hr⟩ | ⟨rfl, hr⟩ <;> rcases new' with ⟨rfl, gr⟩ | ⟨rfl, gr⟩
      · rfl
      · rw [hr, gr] at role; cases role
      · rw [hr, gr] at role; cases role
      · rfl

/-- What a dispatch keeps: the law, and every job at most as often as it was. -/
theorem JobLaw.dispatch {s : State} (law : JobLaw s) {ch : Letter} {j : Job} (waits : j.WaitsIn s)
    (free : (s.channels.get ch).activity.flight? = none) (eligible : EligibleOn s ch j) (senses : Pair (Option Nat)) :
    JobLaw (s.dispatch ch j senses) ∧ ∀ k, (s.dispatch ch j senses).jobIds.count k ≤ s.jobIds.count k := by
  obtain ⟨l, position, needs, -⟩ := eligible.bank
  rw [dispatch_eq senses needs]
  have taken := onlyEnds_takeBank (s.started ch j) ch l position (senses.get l)
  refine ⟨(law.started waits free eligible).of_onlyEnds taken, fun k => (taken.count k).trans ?_⟩
  have := count_started waits free k
  rw [count_jobIds, count_jobIds]
  omega

end Sys2Proof.Machine
end

section
/-! PROOFS. The law of jobs over a dispatch pass, a window event and an assertion of INHIBIT. -/

namespace Sys2Proof.Machine

/-! ### The choice leaves the queues -/

theorem sched_frame (s : State) (q : Scheduler) : KeepsBut [.sched] s { s with sched := q } :=
  keepsBut_of_all (fun p => by cases p <;> first | (left; simp; done) | exact .inr rfl)

theorem now_frame (s : State) (n : Nat) : KeepsBut [.now] s { s with now := n } :=
  keepsBut_of_all (fun p => by cases p <;> first | (left; simp; done) | exact .inr rfl)

theorem choose_sched (s : State) (ch : Letter) : (s.choose ch).sched = { s.sched with classes := (s.choose ch).sched.classes } := by
  unfold State.choose State.weightedChoice
  split
  · rfl
  dsimp only
  split
  · rfl
  split <;> rfl

/-- An operation on the scheduler alone under which the queues only lose jobs. -/
theorem OnlyEnds.of_queues {s t : State} (frame : KeepsBut [.sched, .now, .timeBase, .draws] s t)
    (queued : ∀ k, t.queuedIds.count k ≤ s.queuedIds.count k) : OnlyEnds s t := by
  have channels : t.channels = s.channels := frame.same .channels (by decide)
  have engine : t.engine = s.engine := frame.same .engine (by decide)
  exact .of_stand queued (fun k => by rw [count_flightIds, count_flightIds, channels, engine])
    (buffers_stand (frame.same .buffers (by decide))) (core_of_directory (frame.same .directory (by decide)))

theorem onlyEnds_chosen (s : State) (ch : Letter) : OnlyEnds s { s with sched := (s.choose ch).sched } := by
  refine .of_queues ((sched_frame s _).mono (by decide)) (fun k => Nat.le_of_eq (congrArg (List.count k) ?_))
  change queueJobs (s.choose ch).sched.classQueues (s.choose ch).sched.demandQueue (s.choose ch).sched.verifyPlaces = _
  rw [choose_sched]
  rfl

theorem Job.WaitsIn.of_calls {s t : State} (calls : Calls s t) {j : Job} (waits : j.WaitsIn s) : j.WaitsIn t := by
  obtain ⟨called, sched⟩ := calls
  cases j with
  | verify own => rw [Job.WaitsIn, sched]; exact waits
  | test kind id => cases kind <;> (rw [Job.WaitsIn, sched]; exact waits)

/-! ### A job that a channel gives up and a queue takes back -/

/-- The channel's job is gone from the channel, and at most one job of its identity joined the queues. -/
theorem OnlyEnds.of_returned {s t : State} {ch : Letter} {f : Flight} {rest : Activity}
    (busy : (s.channels.get ch).activity.flight? = some f) (rests : rest.flight? = none)
    (queued : ∀ k, t.queuedIds.count k ≤ s.queuedIds.count k + [f.work.id].count k)
    (flights : ∀ k, t.flightIds.count k = (s.dropFlight ch f rest).flightIds.count k)
    (buffers : t.buffers = (s.dropFlight ch f rest).buffers) (core : t.core = s.core) : OnlyEnds s t := by
  have dropped := onlyEnds_dropFlight busy rests
  have counted := count_dropFlight busy rests
  refine ⟨fun k => ?_, fun id _ held => held_of_core core held, fun i h hh => dropped.buffers i h (buffers ▸ hh),
    fun i h hh => ?_⟩
  · rw [count_jobIds, count_jobIds, flights, ← counted k]
    have := queued k
    omega
  · rw [flights]
    exact dropped.holders i h (buffers ▸ hh)

theorem abortChannel_of_flight {s : State} {ch : Letter} {f : Flight} (busy : (s.channels.get ch).activity.flight? = some f) :
    s.abortChannel ch = s.dropFlight ch f s.restActivity := by
  unfold State.abortChannel
  split
  next activity =>
    rw [activity] at busy
    cases busy
    rfl
  next activity => rw [activity] at busy; cases busy
  next activity => rw [activity] at busy; cases busy

/-- A SCHEDULED job aborted and put back at the head of a class queue. -/
theorem onlyEnds_requeued {s : State} {ch : Letter} {f : Flight} (busy : (s.channels.get ch).activity.flight? = some f)
    {id : Nat} (work : f.work.id = .span id) (c : Fin 4) : OnlyEnds s ((s.abortChannel ch).requeueScheduled c id) := by
  refine .of_returned busy s.flight?_restActivity (fun k => ?_) (fun k => ?_) ?_ ?_
  · change ((s.abortChannel ch).headOfClassQueue _ id).queuedIds.count k ≤ _
    rw [count_headOfClassQueue, queuedIds_of_calls (calls_abortChannel s ch), work]
  · rw [← abortChannel_of_flight busy]
    rfl
  · rw [← abortChannel_of_flight busy]
    rfl
  · exact (soft_abortChannel s ch).core

/-! ### A dispatch pass -/

/-- The law of jobs, with every job there at most as often as `n` says. -/
structure JobsWithin (n : JobId → Nat) (s : State) : Prop where
  law    : JobLaw s
  within : ∀ k, s.jobIds.count k ≤ n k

theorem JobsWithin.of_onlyEnds {n : JobId → Nat} {s t : State} (h : JobsWithin n s) (ends : OnlyEnds s t) : JobsWithin n t :=
  ⟨h.law.of_onlyEnds ends, fun k => (ends.count k).trans (h.within k)⟩

theorem JobsWithin.dispatch {n : JobId → Nat} {s : State} (h : JobsWithin n s) {ch : Letter} {j : Job} (waits : j.WaitsIn s)
    (free : (s.channels.get ch).activity.flight? = none) (eligible : EligibleOn s ch j) (senses : Pair (Option Nat)) :
    JobsWithin n (s.dispatch ch j senses) := by
  obtain ⟨law, fewer⟩ := h.law.dispatch waits free eligible senses
  exact ⟨law, fun k => (fewer k).trans (h.within k)⟩

theorem JobsWithin.considerChannel {n : JobId → Nat} {s : State} (h : JobsWithin n s) (senses : Pair (Option Nat))
    (ch : Letter) : JobsWithin n (s.considerChannel senses ch) := by
  refine considerChannel_keeps (fun u j idle chosen hu => ?_) h
  have waits : j.WaitsIn { u with sched := (u.choose ch).sched } := by
    have := waitsIn_of_choose chosen
    cases j with
    | verify own => rw [Job.WaitsIn, choose_sched]; exact this
    | test kind id => cases kind <;> (rw [Job.WaitsIn, choose_sched]; exact this)
  have eligible := (eligible_iff u ch j).mp (eligible_of_choose chosen)
  exact (hu.of_onlyEnds (onlyEnds_chosen u ch)).dispatch waits (by rw [idle]; rfl)
    (eligible.congr rfl rfl rfl rfl (fun _ => rfl) (fun _ => rfl)) senses

/-- The DEMAND jobs of these spans wait in the demand queue. -/
def State.DemandsWait (s : State) (l : List Nat) : Prop := ∀ d ∈ l, { span := d, learn := false } ∈ s.sched.demandQueue

/-- What one pre-emption leaves of the demand queue: all of it, or all but the DEMAND job's entry. -/
theorem demandQueue_preemptFor (senses : Pair (Option Nat)) (s : State) (d : Nat) {e : DemandJob}
    (mem : e ∈ s.sched.demandQueue) (other : e.span ≠ d) : e ∈ (State.preemptFor senses s d).sched.demandQueue := by
  refine preemptFor_keeps (P := fun u => e ∈ u.sched.demandQueue) (fun ch f c id rev busy work aborts eligible => ?_) mem
  have kept : e ∈ ((s.abortChannel ch).requeueScheduled c id).sched.demandQueue := by
    obtain ⟨called, sched⟩ := calls_abortChannel s ch
    change e ∈ (s.abortChannel ch).sched.demandQueue
    rw [sched]
    exact mem
  have eligible : EligibleOn ((s.abortChannel ch).requeueScheduled c id) ch (.test .demand d) :=
    eligible.congr rfl rfl rfl rfl (fun _ => rfl) (fun _ => rfl)
  obtain ⟨l, position, needs, -⟩ := eligible.bank
  rw [dispatch_eq senses needs]
  obtain ⟨called, sched⟩ := calls_takeBank (((s.abortChannel ch).requeueScheduled c id).started ch (.test .demand d)) ch l position
    (senses.get l)
  rw [sched]
  have started : (((s.abortChannel ch).requeueScheduled c id).started ch (.test .demand d)).sched =
      (((s.abortChannel ch).requeueScheduled c id).leaveDemandQueue d).sched :=
    ((takeBuffers_frame _ _ _).same .sched (by decide) :)
  rw [started]
  exact List.mem_filter.mpr ⟨kept, bne_iff_ne.mpr other⟩

theorem JobsWithin.preemptFor {n : JobId → Nat} {s : State} (h : JobsWithin n s) (senses : Pair (Option Nat)) {d : Nat}
    (waits : { span := d, learn := false } ∈ s.sched.demandQueue) : JobsWithin n (State.preemptFor senses s d) := by
  refine preemptFor_keeps (fun ch f c id rev busy work aborts eligible => ?_) h
  have idle : ((s.abortChannel ch).channels.get ch).activity = .idle := idle_of_aborts aborts eligible
  have requeued := h.of_onlyEnds (onlyEnds_requeued busy (id := id) (by rw [work]; rfl) c)
  refine requeued.dispatch ?_ (congrArg Activity.flight? idle) (eligible.congr rfl rfl rfl rfl (fun _ => rfl) (fun _ => rfl)) senses
  obtain ⟨called, sched⟩ := calls_abortChannel s ch
  change _ ∈ (s.abortChannel ch).sched.demandQueue
  rw [sched]
  exact waits

theorem JobsWithin.preempt {n : JobId → Nat} {s : State} (h : JobsWithin n s) (senses : Pair (Option Nat)) :
    JobsWithin n (s.preempt senses) := by
  have fold (l : List Nat) : ∀ u : State, l.Nodup → u.DemandsWait l → JobsWithin n u →
      JobsWithin n (l.foldl (State.preemptFor senses) u) := by
    induction l with
    | nil => exact fun _ _ _ hu => hu
    | cons d rest ih =>
      intro u apart waits hu
      obtain ⟨new, apart⟩ := List.nodup_cons.mp apart
      refine ih _ apart (fun e he => ?_) (hu.preemptFor senses (waits d (by simp)))
      exact demandQueue_preemptFor senses u d (waits e (by simp [he])) (by rintro rfl; exact new he)
  unfold State.preempt
  split
  · refine fold _ s ?_ (fun d hd => ?_) h
    · have demand : (s.sched.demandQueue.map (fun d => JobId.span d.span)).Sublist s.jobIds :=
        ((((List.sublist_append_right ..).trans (List.sublist_append_left ..)).trans (List.sublist_append_left ..)).trans
          (List.sublist_append_left ..))
      have once := (demand.nodup h.law.once).sublist ((List.filter_sublist (p := fun d => !d.learn)).map _)
      exact List.Nodup.of_map JobId.span (by rw [State.demandSpans, List.map_map]; exact once)
    · obtain ⟨⟨span, learn⟩, he, rfl⟩ := List.mem_map.mp hd
      obtain ⟨mem, demand⟩ := List.mem_filter.mp he
      cases learn
      · exact mem
      · cases demand
  · exact h

theorem JobsWithin.dispatchPass {n : JobId → Nat} {s : State} (h : JobsWithin n s) (senses : Pair (Option Nat)) :
    JobsWithin n (s.dispatchPass senses) := by
  have answered : OnlyEnds s { s with sched := { s.sched with dispatchCalled := false } } :=
    .of_queues ((sched_frame s _).mono (by decide)) (fun _ => Nat.le_refl _)
  have considered := ((h.of_onlyEnds answered).considerChannel senses .A).considerChannel senses .B
  exact (considered.preempt senses).of_onlyEnds (.of_frame (now_frame ..) rfl)

theorem jobLaw_dispatchPass {s : State} (law : JobLaw s) (senses : Pair (Option Nat)) : JobLaw (s.dispatchPass senses) :=
  (JobsWithin.dispatchPass ⟨law, fun _ => Nat.le_refl _⟩ senses).law

end Sys2Proof.Machine
end

section
/-! PROOFS. The law of jobs over a window open, a window close and an assertion of INHIBIT. -/

namespace Sys2Proof.Machine

/-! ### A window open (R164) -/

/-- The spans that a window open gives a SCHEDULED job of a class. -/
def State.openedIds (s : State) (window : Nat) (c : Fin 4) : List Nat :=
  (s.spans.filter (s.queuesAtOpen window c)).map SpanRecord.id

/-- The verify job that a window open may put in a channel's place. -/
def State.newVerify (s : State) (own : Letter) : List JobId := if s.hasVerifyJob own then [] else [.verify own]

/-- The jobs that can join the queues at a window open. -/
def State.joiners (s : State) (window : Nat) : List JobId :=
  (classNumbers.flatMap (s.openedIds window)).map .span ++ s.newVerify .A ++ s.newVerify .B

theorem mem_openedIds {s : State} {window id : Nat} {c : Fin 4} (h : id ∈ s.openedIds window c) :
    ∃ r ∈ s.spans, r.id = id ∧ r.cls = c ∧ s.jobPlace id = none := by
  obtain ⟨r, hr, rfl⟩ := List.mem_map.mp h
  obtain ⟨mem, due⟩ := List.mem_filter.mp hr
  simp only [State.queuesAtOpen, Bool.and_eq_true, beq_iff_eq, Option.isNone_iff_eq_none] at due
  obtain ⟨⟨-, cls⟩, place⟩ := due
  exact ⟨r, mem, rfl, cls, place⟩

theorem mem_newVerify {s : State} {own : Letter} {k : JobId} (h : k ∈ s.newVerify own) :
    k = .verify own ∧ s.hasVerifyJob own = false := by
  unfold State.newVerify at h
  split at h
  · cases h
  next absent => exact ⟨List.mem_singleton.mp h, Bool.not_eq_true _ ▸ absent⟩

theorem nodup_newVerify (s : State) (own : Letter) : (s.newVerify own).Nodup := by
  unfold State.newVerify
  split <;> simp

theorem nodup_openedIds {s : State} (law : DirectoryLaw s) (window : Nat) :
    (classNumbers.flatMap (s.openedIds window)).Nodup := by
  have distinct : (s.spans.map SpanRecord.id).Nodup := (ids_pairwise_of_law law).imp (fun hab => Nat.ne_of_lt hab)
  refine List.nodup_flatMap.mpr ⟨fun c _ => distinct.sublist (List.filter_sublist.map _), ?_⟩
  have apart : classNumbers.Pairwise (· ≠ ·) := by decide
  refine apart.imp fun differ id hc hd => ?_
  obtain ⟨r, hr, names, cls, -⟩ := mem_openedIds hc
  obtain ⟨q, hq, names', cls', -⟩ := mem_openedIds hd
  have same := List.inj_on_of_nodup_map distinct hr hq (names.trans names'.symm)
  exact differ (cls.symm.trans ((congrArg SpanRecord.cls same).trans cls'))

theorem nodup_joiners {s : State} (law : DirectoryLaw s) (window : Nat) : (s.joiners window).Nodup := by
  have spans : ((classNumbers.flatMap (s.openedIds window)).map JobId.span).Nodup :=
    (nodup_openedIds law window).map (fun _ _ => JobId.span.inj)
  refine List.nodup_append.mpr ⟨List.nodup_append.mpr ⟨spans, nodup_newVerify s .A, fun j hj k hk => ?_⟩,
    nodup_newVerify s .B, fun j hj k hk => ?_⟩
  · obtain ⟨id, -, rfl⟩ := List.mem_map.mp hj
    rw [(mem_newVerify hk).1]
    exact nofun
  · rw [(mem_newVerify hk).1]
    rcases List.mem_append.mp hj with hj | hj
    · obtain ⟨id, -, rfl⟩ := List.mem_map.mp hj
      exact nofun
    · rw [(mem_newVerify hj).1]
      exact nofun

theorem notMem_jobIds_of_noVerify {s : State} {own : Letter} (h : s.hasVerifyJob own = false) :
    JobId.verify own ∉ s.jobIds := by
  simp only [State.hasVerifyJob, Bool.or_eq_false_iff, List.any_eq_false, beq_iff_eq] at h
  obtain ⟨place, flights⟩ := h
  intro mem
  rcases List.mem_append.mp mem with queued | dispatched
  · cases own <;> simp only [Pair.get] at place <;> simp [State.queuedIds, place] at queued
  · obtain ⟨f, hf, names⟩ := List.mem_map.mp dispatched
    exact flights f hf names

/-- What joins at a window open had no job before. -/
theorem notMem_jobIds_of_joins {s : State} {window : Nat} {k : JobId} (h : k ∈ s.joiners window) : k ∉ s.jobIds := by
  rcases List.mem_append.mp h with h | h
  · rcases List.mem_append.mp h with h | h
    · obtain ⟨id, hid, rfl⟩ := List.mem_map.mp h
      obtain ⟨c, -, opened⟩ := List.mem_flatMap.mp hid
      obtain ⟨-, -, -, -, place⟩ := mem_openedIds opened
      exact notMem_jobIds_of_jobPlace place
    · obtain ⟨rfl, absent⟩ := mem_newVerify h
      exact notMem_jobIds_of_noVerify absent
  · obtain ⟨rfl, absent⟩ := mem_newVerify h
    exact notMem_jobIds_of_noVerify absent

theorem count_openedVerifyPlace (s : State) (own : Letter) (k : JobId) :
    (placeJobs (s.openedVerifyPlace own) own).count k ≤
      (placeJobs (s.sched.verifyPlaces.get own) own).count k + (s.newVerify own).count k := by
  unfold State.openedVerifyPlace State.newVerify placeJobs
  cases s.sched.verifyPlaces.get own
  · cases s.hasVerifyJob own
    · dsimp only
      split <;> simp
    · simp
  · simp

theorem count_raiseWindow (s : State) (k : JobId) :
    s.raiseWindow.queuedIds.count k ≤ s.queuedIds.count k + (s.joiners (wrapSucc s.timeBase.windowNumber)).count k := by
  have queues : s.raiseWindow.sched.classQueues.toList.flatten.Perm
      (s.sched.classQueues.toList.flatten ++ classNumbers.flatMap (s.openedIds (wrapSucc s.timeBase.windowNumber))) := by
    rw [List.perm_iff_count]
    intro id
    simp only [State.raiseWindow, State.openedScheduler, State.openedQueue, Quad.toList, classNumbers, State.openedIds,
      Quad.get, List.flatten_cons, List.flatten_nil, List.append_nil, List.flatMap_cons, List.flatMap_nil, List.count_append]
    omega
  have counted := (queues.map JobId.span).count_eq k
  rw [List.map_append, List.count_append] at counted
  have placeA := count_openedVerifyPlace s .A k
  have placeB := count_openedVerifyPlace s .B k
  rw [queuedIds_eq, queuedIds_eq, count_queueJobs, count_queueJobs, counted, State.joiners, List.count_append,
    List.count_append]
  change _ + _ + (s.sched.demandQueue.map (fun d => JobId.span d.span)).count k +
    (placeJobs (s.openedVerifyPlace .A) .A).count k + (placeJobs (s.openedVerifyPlace .B) .B).count k ≤ _
  simp only [Pair.get] at placeA placeB
  omega

theorem jobLaw_raiseWindow {s : State} (directory : DirectoryLaw s) (law : JobLaw s) : JobLaw s.raiseWindow := by
  have flights : s.raiseWindow.flightIds = s.flightIds := rfl
  have counted (k : JobId) : s.raiseWindow.jobIds.count k ≤
      s.jobIds.count k + (s.joiners (wrapSucc s.timeBase.windowNumber)).count k := by
    rw [count_jobIds, count_jobIds, flights]
    have := count_raiseWindow s k
    omega
  refine ⟨List.nodup_iff_count_le_one.mpr fun k => (counted k).trans ?_, fun id mem => ?_, law.held, law.roles⟩
  · by_cases joins : k ∈ s.joiners (wrapSucc s.timeBase.windowNumber)
    · rw [List.count_eq_zero.mpr (notMem_jobIds_of_joins joins), Nat.zero_add]
      exact List.nodup_iff_count_le_one.mp (nodup_joiners directory _) k
    · rw [List.count_eq_zero.mpr joins]
      exact List.nodup_iff_count_le_one.mp law.once k
  · by_cases joins : JobId.span id ∈ s.joiners (wrapSucc s.timeBase.windowNumber)
    · rcases List.mem_append.mp joins with joins | joins
      · rcases List.mem_append.mp joins with joins | joins
        · obtain ⟨_, hid, same⟩ := List.mem_map.mp joins
          cases same
          obtain ⟨c, -, opened⟩ := List.mem_flatMap.mp hid
          obtain ⟨r, hr, names, -⟩ := mem_openedIds opened
          exact ⟨r, hr, names⟩
        · cases (mem_newVerify joins).1
      · cases (mem_newVerify joins).1
    · have := counted (.span id)
      rw [List.count_eq_zero.mpr joins] at this
      exact law.named id (List.count_pos_iff.mp (Nat.lt_of_lt_of_le (List.count_pos_iff.mpr mem) this))

/-! ### The jobs set aside over a pass (R14) -/

/-- The jobs of these spans in the class queues. -/
def State.asideIds (s : State) (held : List Nat) : List JobId :=
  (s.sched.classQueues.toList.flatten.filter (fun i => held.contains i)).map .span

theorem count_setAside (s : State) (held : List Nat) (k : JobId) :
    (s.setAside held).queuedIds.count k + (s.asideIds held).count k = s.queuedIds.count k := by
  have split := (List.filter_append_perm (fun i => held.contains i) s.sched.classQueues.toList.flatten).map JobId.span
  have counted := split.count_eq k
  rw [List.map_append, List.count_append] at counted
  have kept : (s.setAside held).sched.classQueues.toList.flatten =
      s.sched.classQueues.toList.flatten.filter (fun i => !held.contains i) := by
    simp [State.setAside, Quad.map, Quad.toList, List.filter_append]
  rw [queuedIds_eq, queuedIds_eq, count_queueJobs, count_queueJobs, kept, State.asideIds, ← counted]
  change _ + (s.sched.demandQueue.map (fun d => JobId.span d.span)).count k + (placeJobs s.sched.verifyPlaces.a .A).count k +
    (placeJobs s.sched.verifyPlaces.b .B).count k + _ = _
  omega

theorem count_putBack (s u : State) (held : List Nat) (k : JobId) :
    (u.putBack held s.sched.classQueues).queuedIds.count k = u.queuedIds.count k + (s.asideIds held).count k := by
  have queues : (u.putBack held s.sched.classQueues).sched.classQueues.toList.flatten.Perm
      (u.sched.classQueues.toList.flatten ++ s.sched.classQueues.toList.flatten.filter (fun i => held.contains i)) := by
    rw [List.perm_iff_count]
    intro id
    simp only [State.putBack, Quad.map, Quad.toList, List.flatten_cons, List.flatten_nil, List.append_nil, List.filter_append,
      List.count_append]
    omega
  have counted := (queues.map JobId.span).count_eq k
  rw [List.map_append, List.count_append] at counted
  rw [queuedIds_eq, queuedIds_eq, count_queueJobs, count_queueJobs, counted, State.asideIds]
  change _ + _ + (u.sched.demandQueue.map (fun d => JobId.span d.span)).count k + (placeJobs u.sched.verifyPlaces.a .A).count k +
    (placeJobs u.sched.verifyPlaces.b .B).count k = _
  omega

/-- A pass between the setting aside and the putting back of jobs keeps the law. -/
theorem jobLaw_passedAside {s : State} (law : JobLaw s) (held : List Nat) (senses : Pair (Option Nat)) :
    JobLaw (((s.setAside held).dispatchPass senses).putBack held s.sched.classQueues) := by
  have aside := count_setAside s held
  have ends : OnlyEnds s (s.setAside held) :=
    .of_queues ((setAside_frame s held).mono (by decide)) (fun k => by have := aside k; omega)
  have passed := JobsWithin.dispatchPass ⟨law.of_onlyEnds ends, fun _ => Nat.le_refl _⟩ senses
  have counted (k : JobId) : (((s.setAside held).dispatchPass senses).putBack held s.sched.classQueues).jobIds.count k ≤
      s.jobIds.count k := by
    have flights : (((s.setAside held).dispatchPass senses).putBack held s.sched.classQueues).flightIds =
        ((s.setAside held).dispatchPass senses).flightIds := rfl
    have asideFlights : (s.setAside held).flightIds = s.flightIds := rfl
    have within := passed.within k
    have before := aside k
    rw [count_jobIds, count_jobIds, asideFlights] at within
    rw [count_jobIds, count_jobIds, count_putBack, flights]
    omega
  refine ⟨List.nodup_iff_count_le_one.mpr fun k => (counted k).trans (List.nodup_iff_count_le_one.mp law.once k),
    fun id mem => ?_, passed.law.held, passed.law.roles⟩
  have core : (((s.setAside held).dispatchPass senses).putBack held s.sched.classQueues).core = s.core :=
    core_dispatchPass (s.setAside held) senses
  exact held_of_core core
    (law.named id (List.count_pos_iff.mp (Nat.lt_of_lt_of_le (List.count_pos_iff.mpr mem) (counted (.span id)))))

theorem jobLaw_openWindow {s : State} (directory : DirectoryLaw s) (law : JobLaw s) (held : List Nat) :
    JobLaw (s.openWindow held) := by
  have opened : JobLaw s.raiseWindow.drawn :=
    (jobLaw_raiseWindow directory law).of_onlyEnds (.of_frame (drawn_frame _) rfl)
  exact jobLaw_passedAside opened held s.drawnSenses

/-! ### A window close (R166) -/

theorem onlyEnds_closeWindow (s : State) : OnlyEnds s s.closeWindow := by
  have closed : OnlyEnds s { s with timeBase := { s.timeBase with windowOpen := false } } :=
    .of_stand (fun _ => Nat.le_refl _) (fun _ => rfl) (buffers_stand rfl) rfl
  have discarded (u : State) : OnlyEnds u u.discardQueued := by
    refine .of_stand (fun k => ?_) (fun _ => rfl) (buffers_stand rfl) (core_map rfl (Entry.core_missIfIn _))
    change (queueJobs ⟨[], [], [], []⟩ u.sched.demandQueue ⟨false, false⟩).count k ≤ _
    rw [queuedIds_eq, count_queueJobs, count_queueJobs]
    simp only [Quad.toList, List.flatten_cons, List.flatten_nil, List.append_nil, List.map_nil, List.count_nil, placeJobs,
      Bool.false_eq_true, if_false]
    omega
  have atChannels (u : State) : OnlyEnds u u.closeAtChannels :=
    closeAtChannels_keeps (P := OnlyEnds u) (fun v h => h.trans (.of_frame (drawn_frame v) rfl))
      (fun v ch h => h.trans (onlyEnds_closeAtChannel v ch)) (.refl u)
  exact ((closed.trans (discarded _)).trans (atChannels _)).trans (onlyEnds_callDispatch _)

theorem jobLaw_retestWindow {s : State} (directory : DirectoryLaw s) (law : JobLaw s) (held : List Nat) :
    JobLaw (s.retestWindow held) :=
  retestWindow_keeps (fun _ => jobLaw_openWindow directory law held) (fun _ => law.of_onlyEnds (onlyEnds_closeWindow s)) law

/-! ### An assertion of INHIBIT (R93) -/

theorem onlyEnds_markChannel (s : State) (ch : Letter) : OnlyEnds s (s.markChannel ch) := onlyEnds_setChannel s ch rfl

/-- At most the aborted job joins the queues. -/
theorem count_returnJob (s : State) (w : Work) (k : JobId) :
    (s.returnJob w).queuedIds.count k ≤ s.queuedIds.count k + [w.id].count k := by
  cases w with
  | verify own coil => exact Nat.le_add_right _ _
  | test kind id revision =>
    cases kind with
    | scheduled c =>
      unfold State.returnJob
      dsimp only
      split
      · exact Nat.le_of_eq (count_headOfClassQueue ..)
      · exact Nat.le_add_right _ _
    | demand => exact Nat.le_of_eq (count_headOfDemandQueue ..)
    | learn => exact Nat.le_of_eq (count_headOfDemandQueue ..)

theorem onlyEnds_inhibitChannel (s : State) (ch : Letter) : OnlyEnds s (s.inhibitChannel ch) := by
  have core := (soft_inhibitChannel s ch).core
  unfold State.inhibitChannel at core ⊢
  split
  next idle =>
    refine (onlyEnds_setChannel s ch ?_).trans (onlyEnds_markChannel ..)
    rw [Channel.jobs_of_none (c := s.channels.get ch) (by rw [idle]; rfl)]
    rfl
  next stage f busy =>
    rw [busy] at core
    have frame := returnJob_frame ((s.dropFlight ch f .inhibited).markChannel ch) f.work
    have channels := frame.same .channels (by decide)
    have engine := frame.same .engine (by decide)
    refine .of_returned (f := f) (rest := .inhibited) (by rw [busy]; rfl) rfl (fun k => ?_) (fun k => ?_)
      (frame.same .buffers (by decide)) core
    · have returned := count_returnJob ((s.dropFlight ch f .inhibited).markChannel ch) f.work k
      have dropped : ((s.dropFlight ch f .inhibited).markChannel ch).queuedIds = s.queuedIds :=
        queuedIds_of_calls (calls_dropFlight s ch f .inhibited)
      rwa [dropped] at returned
    · have marked : ((s.dropFlight ch f .inhibited).markChannel ch).flightIds.count k =
          (s.dropFlight ch f .inhibited).flightIds.count k := by
        have counted := count_flightIds_set (s := s.dropFlight ch f .inhibited) (t := (s.dropFlight ch f .inhibited).markChannel ch)
          (ch := ch) rfl rfl k
        exact Nat.add_right_cancel counted
      rw [← marked, count_flightIds, count_flightIds, channels, engine]
  next => exact .refl s

end Sys2Proof.Machine
end

section
/-! PROOFS. Every step keeps the law of jobs and trace buffers; with the INHIBIT and queue laws, O16. -/

namespace Sys2Proof.Machine

/-! ### Spans that stay held -/

/-- Every span of `s` is a span of `t`. -/
def KeepsSpans (s t : State) : Prop := ∀ id, (∃ r ∈ s.spans, r.id = id) → ∃ r ∈ t.spans, r.id = id

theorem KeepsSpans.of_core {s t : State} (core : t.core = s.core) : KeepsSpans s t := fun _ held => held_of_core core held

theorem keepsSpans_modifySpan (s : State) {id : Nat} {f : SpanRecord → SpanRecord} (names : ∀ r : SpanRecord, r.id = id → (f r).id = id) :
    KeepsSpans s (s.modifySpan id f) := by
  rintro k ⟨r, hr, rfl⟩
  rw [spans_modifySpan]
  refine ⟨_, List.mem_map_of_mem hr, ?_⟩
  split
  next same => exact (names r same).trans same.symm
  next => rfl

/-- An operation on the directory that keeps its spans, and at most calls for a pass. -/
theorem OnlyEnds.of_keepsSpans {s t : State} (frame : KeepsBut [.directory, .sched, .table] s t) (calls : Calls s t)
    (keeps : KeepsSpans s t) : OnlyEnds s t := by
  have channels : t.channels = s.channels := frame.same .channels (by decide)
  have engine : t.engine = s.engine := frame.same .engine (by decide)
  have flights (k : JobId) : t.flightIds.count k = s.flightIds.count k := by
    rw [count_flightIds, count_flightIds, channels, engine]
  refine ⟨fun k => ?_, fun id _ held => keeps id held, buffers_stand (frame.same .buffers (by decide)), fun _ _ _ => by rw [flights]⟩
  rw [count_jobIds, count_jobIds, flights, queuedIds_of_calls calls]

/-- The law reads the queued and the dispatched jobs, the buffers and the identifiers of the spans. -/
theorem JobLaw.congr {s t : State} (law : JobLaw s) (queued : t.queuedIds = s.queuedIds) (flights : t.flightIds = s.flightIds)
    (buffers : t.buffers = s.buffers) (core : t.core = s.core) : JobLaw t :=
  law.of_onlyEnds (.of_stand (fun _ => by rw [queued]) (fun _ => by rw [flights]) (buffers_stand buffers) core)

/-! ### The end of a span's job (R18, R172) -/

theorem onlyEnds_leaveClassQueue (s : State) (id : Nat) : OnlyEnds s (s.leaveClassQueue id) := by
  refine .of_queues ((sched_frame s _).mono (by decide)) (fun k => ?_)
  have after : (s.leaveClassQueue id).queuedIds = queueJobs (s.sched.classQueues.map (fun l => l.filter (fun i => i != id)))
      s.sched.demandQueue s.sched.verifyPlaces := rfl
  have fewer := (List.filter_sublist (p := fun i => i != id) (l := s.sched.classQueues.toList.flatten)).map JobId.span |>.count_le k
  rw [after, queuedIds_eq, count_queueJobs, count_queueJobs, flatten_leaveClassQueue]
  omega

theorem onlyEnds_leaveDemandQueue (s : State) (id : Nat) : OnlyEnds s (s.leaveDemandQueue id) := by
  refine .of_queues ((sched_frame s _).mono (by decide)) (fun k => ?_)
  have after : (s.leaveDemandQueue id).queuedIds = queueJobs s.sched.classQueues
      (s.sched.demandQueue.filter (fun d => d.span != id)) s.sched.verifyPlaces := rfl
  have fewer := (List.filter_sublist (p := fun d : DemandJob => d.span != id) (l := s.sched.demandQueue)).map
    (fun d => JobId.span d.span) |>.count_le k
  rw [after, queuedIds_eq, count_queueJobs, count_queueJobs]
  omega

theorem onlyEnds_removeJob (s : State) (id : Nat) (place : JobPlace) : OnlyEnds s (s.removeJob id place) := by
  cases place with
  | classQueue c => exact onlyEnds_leaveClassQueue ..
  | demandQueue learn => exact onlyEnds_leaveDemandQueue ..
  | channel ch f => exact onlyEnds_abortChannel ..
  | waiting f => exact onlyEnds_leaveAnalysisQueue ..
  | analysing a => exact .refl s

theorem count_leaveAnalysisQueue {s : State} {f : Flight} (mem : f ∈ s.engine.queue) (k : JobId) :
    (s.leaveAnalysisQueue f.work.id).jobIds.count k + [f.work.id].count k ≤ s.jobIds.count k := by
  have left := count_filter_ne (fun g : Flight => g.work.id) (j := f.work.id) (p := fun g => g.work.id != f.work.id)
    (fun _ => bne_iff_ne) (List.mem_map_of_mem mem) k
  have calls : Calls s (s.leaveAnalysisQueue f.work.id) := calls_leaveAnalysisQueue ..
  have channels : (s.leaveAnalysisQueue f.work.id).channels = s.channels :=
    (leaveAnalysisQueue_frame s f.work.id).same .channels (by decide)
  have engine : (s.leaveAnalysisQueue f.work.id).engine.jobs.count k =
      (Engine.jobs { s.engine with queue := s.engine.queue.filter (fun g => g.work.id != f.work.id) }).count k :=
    count_takeHead _ k
  rw [count_jobIds, count_jobIds, queuedIds_of_calls calls, count_flightIds, count_flightIds, channels, engine, Engine.jobs, Engine.jobs,
    List.count_append, List.count_append]
  dsimp only
  omega

theorem count_endAnalysis {s : State} {a : Analysis} (current : s.engine.current = some a) (k : JobId) :
    (s.endAnalysis a).jobIds.count k + [a.flight.work.id].count k = s.jobIds.count k := by
  have calls : Calls s (s.endAnalysis a) := calls_endAnalysis ..
  have channels : (s.endAnalysis a).channels = s.channels := (endAnalysis_frame s a).same .channels (by decide)
  have engine : (s.endAnalysis a).engine.jobs.count k = (Engine.jobs { s.engine with current := none }).count k :=
    count_takeHead _ k
  rw [count_jobIds, count_jobIds, queuedIds_of_calls calls, count_flightIds, count_flightIds, channels, engine, Engine.jobs, Engine.jobs,
    List.count_append, List.count_append, current]
  simp
  omega

/-- A job removed short of ANALYSING leaves the count. -/
theorem count_removeJob {s : State} {id : Nat} {place : JobPlace} (holds : place.HoldsJobOf s id)
    (short : ∀ a, place ≠ .analysing a) (k : JobId) :
    (s.removeJob id place).jobIds.count k + [JobId.span id].count k ≤ s.jobIds.count k := by
  cases place with
  | classQueue c =>
    have flights : (s.leaveClassQueue id).flightIds = s.flightIds := rfl
    have left := queued_leaveClassQueue (Quad.mem_flatten.mpr ⟨c, holds⟩) k
    change (s.leaveClassQueue id).jobIds.count k + _ ≤ _
    rw [count_jobIds, count_jobIds, flights]
    omega
  | demandQueue learn =>
    have flights : (s.leaveDemandQueue id).flightIds = s.flightIds := rfl
    have left := queued_leaveDemandQueue (id := id) ⟨_, holds, rfl⟩ k
    change (s.leaveDemandQueue id).jobIds.count k + _ ≤ _
    rw [count_jobIds, count_jobIds, flights]
    omega
  | channel ch f =>
    obtain ⟨busy, work⟩ := holds
    have dropped := count_dropFlight busy s.flight?_restActivity k
    change (s.abortChannel ch).jobIds.count k + _ ≤ _
    rw [count_jobIds, count_jobIds, queuedIds_of_calls (calls_abortChannel s ch), abortChannel_of_flight busy, ← work]
    omega
  | waiting f =>
    obtain ⟨mem, work⟩ := holds
    change (s.leaveAnalysisQueue (.span id)).jobIds.count k + _ ≤ _
    rw [← work]
    exact count_leaveAnalysisQueue mem k
  | analysing a => exact absurd rfl (short a)

theorem held_becomeEmpty {s : State} {id k : Nat} (other : k ≠ id) (held : ∃ r ∈ s.spans, r.id = k) :
    ∃ r ∈ (s.becomeEmpty id).spans, r.id = k := by
  obtain ⟨r, hr, rfl⟩ := held
  rw [spans_becomeEmpty]
  exact ⟨r, List.mem_filter.mpr ⟨hr, bne_iff_ne.mpr other⟩, rfl⟩

/-- A span without a job becomes EMPTY. -/
theorem JobLaw.becomeEmpty {s : State} (law : JobLaw s) {id : Nat} (jobless : JobId.span id ∉ s.jobIds) : JobLaw (s.becomeEmpty id) := by
  refine ⟨law.once, fun k mem => ?_, law.held, law.roles⟩
  exact held_becomeEmpty (fun same => jobless (same ▸ mem)) (law.named k mem)

theorem JobLaw.retireSpan {s : State} (law : JobLaw s) (id : Nat) : JobLaw (retireSpan s id).1 := by
  unfold Machine.retireSpan
  split
  next => exact law.of_onlyEnds (.of_core (modifySpan_frame ..) rfl (core_modifySpan s id (fun _ => rfl)))
  next p notAnalysing place =>
    have removed := count_removeJob (holdsJobOf_of_jobPlace place) notAnalysing (.span id)
    have once := List.nodup_iff_count_le_one.mp law.once (.span id)
    rw [List.count_singleton_self] at removed
    exact (law.of_onlyEnds (onlyEnds_removeJob s id p)).becomeEmpty (List.count_eq_zero.mp (by omega))
  next place => exact law.becomeEmpty (notMem_jobIds_of_jobPlace place)

/-! ### A job put at the tail of the demand queue (R16, R171) -/

theorem JobLaw.tailOfDemandQueue {s : State} (law : JobLaw s) {id : Nat} {learn : Bool} (jobless : JobId.span id ∉ s.jobIds)
    (held : ∃ r ∈ s.spans, r.id = id) : JobLaw (s.tailOfDemandQueue { span := id, learn := learn }) := by
  have counted (k : JobId) : (s.tailOfDemandQueue { span := id, learn := learn }).jobIds.count k =
      s.jobIds.count k + [JobId.span id].count k := by
    have flights : (s.tailOfDemandQueue { span := id, learn := learn }).flightIds = s.flightIds := rfl
    rw [count_jobIds, count_jobIds, count_tailOfDemandQueue, flights]
    dsimp only
    omega
  refine ⟨List.nodup_iff_count_le_one.mpr fun k => ?_, fun k mem => ?_, law.held, law.roles⟩
  · rw [counted]
    by_cases same : k = .span id
    · subst same
      rw [List.count_eq_zero.mpr jobless, List.count_singleton_self]
    · rw [List.count_eq_zero.mpr (show k ∉ [JobId.span id] by simpa using same)]
      exact List.nodup_iff_count_le_one.mp law.once k
  · by_cases same : k = id
    · subst same
      exact held
    · have := counted (.span k)
      rw [List.count_eq_zero.mpr (show JobId.span k ∉ [JobId.span id] by simpa using same)] at this
      exact law.named k (List.count_pos_iff.mp (Nat.lt_of_lt_of_eq (List.count_pos_iff.mpr mem) this))

/-! ### An analysis completion (R105) -/

theorem count_flightIds_dispose (s : State) (a : Analysis) (k : JobId) :
    (s.dispose a).flightIds.count k = s.flightIds.count k := by
  have engine : (s.dispose a).engine = s.engine := (dispose_frame s a).same .engine (by decide)
  have channel (ch : Letter) : ((s.dispose a).channels.get ch).jobs = (s.channels.get ch).jobs := by
    rw [Channel.jobs, dispose_activity, Channel.jobs]
  have a' : (s.dispose a).channels.a.jobs = s.channels.a.jobs := channel .A
  have b' : (s.dispose a).channels.b.jobs = s.channels.b.jobs := channel .B
  rw [count_flightIds, count_flightIds, engine, a', b']

theorem held_dispose {s : State} {a : Analysis} {k : Nat} (other : a.flight.work.id ≠ .span k) (held : ∃ r ∈ s.spans, r.id = k) :
    ∃ r ∈ (s.dispose a).spans, r.id = k := by
  rcases dispose_cases s a with core | ⟨id, work, empty⟩ | ⟨id, x, -, adopted⟩
  · exact held_of_core core held
  · rw [empty]
    exact held_becomeEmpty (fun same => other (same ▸ work)) held
  · have first := held_of_core (core_writeOutcome s id .clean (some x.endDistance)) held
    have := keepsSpans_modifySpan (s.writeOutcome id .clean (some x.endDistance)) (id := id) (f := SpanRecord.adopt (learnedList x))
      (fun _ same => same) k first
    rwa [State.spans, adopted]

theorem JobLaw.analysed {s : State} (law : JobLaw s) {a : Analysis} (current : s.engine.current = some a) :
    JobLaw ((s.dispose a).endAnalysis a) := by
  have frame := dispose_frame s a
  have sched : (s.dispose a).sched = s.sched := frame.same .sched (by decide)
  have buffers : (s.dispose a).buffers = s.buffers := frame.same .buffers (by decide)
  have current' : (s.dispose a).engine.current = some a := by
    rw [show (s.dispose a).engine = s.engine from frame.same .engine (by decide)]
    exact current
  have jobs (k : JobId) : (s.dispose a).jobIds.count k = s.jobIds.count k := by
    rw [count_jobIds, count_jobIds, count_flightIds_dispose, State.queuedIds, sched, State.queuedIds]
  have ends := onlyEnds_endAnalysis current'
  have directory : ((s.dispose a).endAnalysis a).directory = (s.dispose a).directory :=
    (endAnalysis_frame (s.dispose a) a).same .directory (by decide)
  refine law.of_onlyEnds ⟨fun k => (ends.count k).trans (Nat.le_of_eq (jobs k)), fun id mem held => ?_, fun i h hh => ?_, fun i h hh => ?_⟩
  · have ended := count_endAnalysis current' (.span id)
    have once := List.nodup_iff_count_le_one.mp law.once (.span id)
    rw [jobs] at ended
    have present := List.count_pos_iff.mpr mem
    have other : a.flight.work.id ≠ .span id := by
      intro same
      rw [same, List.count_singleton_self] at ended
      omega
    rw [State.spans, directory]
    exact held_dispose other held
  · obtain ⟨g, hg, same⟩ := ends.buffers i h hh
    exact ⟨g, buffers ▸ hg, same⟩
  · rw [← count_flightIds_dispose s a]
    exact ends.holders i h hh

/-! ### Requests -/

theorem onlyEnds_cancelJob {s : State} {id : Nat} {place : JobPlace} (holds : place.HoldsJobOf s id) : OnlyEnds s (cancelJob s id place) := by
  have written (u : State) (learn : Bool) : OnlyEnds u (u.writeCancelled id learn) :=
    .of_core (writeCancelled_frame ..) rfl (soft_writeCancelled ..).core
  unfold cancelJob
  split
  next a =>
    split
    · exact .refl s
    · obtain ⟨current, -⟩ := holds
      refine (written _ _).after (.of_stand (fun _ => Nat.le_refl _) (fun k => ?_) (buffers_stand rfl) rfl)
      have engine : (s.markCancelled a).engine.jobs = s.engine.jobs := by
        simp [Engine.jobs, State.markCancelled, current]
      rw [count_flightIds, count_flightIds, engine]
      rfl
  all_goals exact (onlyEnds_removeJob ..).trans (written _ _)

theorem onlyEnds_restoreBank (s : State) (l : Letter) (sense : Option Nat) : OnlyEnds s (s.restoreBank l sense) := by
  have written (u : State) (b : Bank) : OnlyEnds u (u.setBank l b) := .of_frame (setBank_frame ..) rfl
  unfold State.restoreBank
  dsimp only
  split
  · exact ((written ..).trans (onlyEnds_settle ..)).trans (onlyEnds_callDispatch _)
  · exact (written ..).trans (onlyEnds_callDispatch _)

theorem onlyEnds_storeCoil (s : State) (l : Letter) (c : Coil) : OnlyEnds s (s.storeCoil l c) := by
  have written : OnlyEnds s (s.setBank l ((s.banks.get l).withCoil c)) := .of_frame (setBank_frame ..) rfl
  have dropped (u : State) : OnlyEnds u (u.dropVerify l) := by
    refine .of_queues ((dropVerify_frame u l).mono (by decide)) (fun k => ?_)
    have after : (u.dropVerify l).queuedIds = queueJobs u.sched.classQueues u.sched.demandQueue
        (u.sched.verifyPlaces.set l false) := rfl
    rw [after, queuedIds_eq, count_queueJobs, count_queueJobs]
    have place (b : Bool) (own : Letter) : (placeJobs false own).count k ≤ (placeJobs b own).count k := Nat.zero_le _
    have placeA := place u.sched.verifyPlaces.a .A
    have placeB := place u.sched.verifyPlaces.b .B
    cases l <;> simp only [Pair.set] <;> omega
  unfold State.storeCoil
  dsimp only
  split
  · exact written.trans (dropped _)
  · exact written

theorem calls_actSpanPut (b : SpanFields) (s : State) : Calls s (actSpanPut b s).1 := by
  unfold actSpanPut
  split
  · exact .refl s
  split
  · exact .refl s
  split
  · unfold editSpan
    split
    · exact .refl s
    dsimp only
    split
    · exact ⟨true, rfl⟩
    · exact .refl s
  · unfold createSpan
    split <;> exact .refl s

theorem keepsSpans_actSpanPut (b : SpanFields) (s : State) : KeepsSpans s (actSpanPut b s).1 := by
  intro k held
  rcases actSpanPut_cases b s with same | ⟨c, r, -, -, -, edited⟩ | ⟨c, -, -, -, -, -, entered⟩
  · rwa [State.spans, same]
  · rw [State.spans, edited]
    exact keepsSpans_modifySpan s (fun _ _ => edited_id ..) k held
  · rw [State.spans, entered]
    obtain ⟨q, hq, names⟩ := held
    exact ⟨q, (perm_spans_entered s _).mem_iff.mpr (List.mem_cons_of_mem _ hq), names⟩

theorem onlyEnds_actSpanPut (b : SpanFields) (s : State) : OnlyEnds s (actSpanPut b s).1 :=
  .of_keepsSpans ((actSpanPut_frame b s).mono (by decide)) (calls_actSpanPut b s) (keepsSpans_actSpanPut b s)

theorem keepsSpans_returnItems (s : State) (items : List Item) : KeepsSpans s (s.returnItems items) := by
  rintro k ⟨r, hr, names⟩
  rw [spans_returnItems]
  refine ⟨_, List.mem_map_of_mem hr, ?_⟩
  split <;> exact names

theorem onlyEnds_returnItems (s : State) (items : List Item) : OnlyEnds s (s.returnItems items) := by
  have jobs (l : Letter) (c : Channel) : (c.afterRead items l).jobs = c.jobs := by
    rw [Channel.jobs, Channel.afterRead_activity, Channel.jobs]
  refine ⟨fun k => ?_, fun k _ held => keepsSpans_returnItems s items k held, buffers_stand rfl, fun _ _ _ => ?_⟩
  · rw [count_jobIds, count_jobIds, count_flightIds, count_flightIds]
    exact Nat.le_of_eq (by simp only [State.returnItems, jobs]; rfl)
  · rw [count_flightIds, count_flightIds]
    exact Nat.le_of_eq (by simp only [State.returnItems, jobs])

theorem jobLaw_of_none {s : State} (jobs : s.jobIds = []) (buffers : s.buffers = ⟨none, none, none, none⟩) : JobLaw s := by
  have free (i : Fin 4) : s.buffers.get i = none := by
    rw [buffers]
    fin_cases i <;> rfl
  refine ⟨jobs ▸ .nil, fun id mem => ?_, fun i h held => ?_, fun i k h g held => ?_⟩
  · rw [jobs] at mem
    cases mem
  · rw [free] at held
    cases held
  · rw [free] at held
    cases held

theorem jobLaw_restarted (s : State) : JobLaw s.restarted := by
  refine jobLaw_of_none ?_ rfl
  have channel (c : Channel) : (c.restarted s.restActivity).activity.flight? = none := by
    unfold Channel.restarted
    split
    next => exact s.flight?_restActivity
    next idle => rw [idle]; rfl
    next inhibited => rw [inhibited]; rfl
  have jobs : s.restarted.jobIds = (s.channels.a.restarted s.restActivity).activity.flight?.toList.map (fun f => f.work.id) ++
      (s.channels.b.restarted s.restActivity).activity.flight?.toList.map (fun f => f.work.id) := by
    simp [State.jobIds, State.queuedIds, State.flights, State.restarted, Scheduler.restarted, Quad.toList, Pair.map]
  rw [jobs, channel, channel]
  rfl

theorem act_jobLaw {i : Instr} {n : Nat} {act : State → State × Reply} (h : requestAct i = some (n, act)) {s : State}
    (directory : DirectoryLaw s) (hs : JobLaw s) : JobLaw (act s).1 := by
  have frame := act_frame h s
  have edited (id : Nat) (f : SpanRecord → SpanRecord) (names : ∀ r : SpanRecord, r.id = id → (f r).id = id) :
      JobLaw (s.modifySpan id f) :=
    hs.of_onlyEnds (.of_keepsSpans ((modifySpan_frame ..).mono (by decide)) (.refl s) (keepsSpans_modifySpan s names))
  cases i
  case spanPut b => cases h; exact hs.of_onlyEnds (onlyEnds_actSpanPut b s)
  case spanHold id =>
    cases h
    change JobLaw (actSpanHold id s).1
    unfold actSpanHold
    repeat' split
    · exact hs
    · refine (hs.of_onlyEnds (onlyEnds_leaveClassQueue s id.toNat)).of_onlyEnds ?_
      exact .of_core (modifySpan_frame ..) rfl (core_modifySpan _ _ (fun _ => rfl))
    · exact hs
  case spanResume id =>
    cases h
    change JobLaw (actSpanResume id s).1
    unfold actSpanResume
    repeat' split
    · exact hs
    · exact edited _ _ (fun _ same => same)
    · exact hs
  case spanRetire id =>
    cases h
    change JobLaw (actSpanRetire id s).1
    unfold actSpanRetire
    repeat' split
    · exact hs
    · exact hs
    · exact hs.retireSpan _
  case spanLearn id =>
    cases h
    change JobLaw (actSpanLearn id s).1
    unfold actSpanLearn
    split
    · exact hs
    next r found =>
    split
    · exact hs
    next taken =>
    obtain ⟨mem, names⟩ := findSpan_some found
    have jobless : JobId.span id.toNat ∉ s.jobIds := by
      unfold State.refusesLearn at taken
      rw [names] at taken
      repeat' split at taken
      all_goals cases taken
      next free _ => exact notMem_jobIds_of_jobPlace (by simpa using free)
    exact (edited id.toNat SpanRecord.beginLearn (fun _ same => same)).tailOfDemandQueue jobless
      (keepsSpans_modifySpan s (f := SpanRecord.beginLearn) (fun _ same => same) _ ⟨r, mem, names⟩)
  case marksAppend body =>
    cases h
    change JobLaw (actMarksAppend body s).1
    rcases actMarksAppend_cases body s with same | ⟨r, marks, -, -, joined⟩
    · rwa [same]
    · rw [joined]
      exact edited _ _ (fun _ _ => rfl)
  case marksClear id =>
    cases h
    change JobLaw (actMarksClear id s).1
    rcases actMarksClear_cases id s with same | ⟨r, -, cleared⟩
    · rwa [same]
    · rw [cleared]
      exact edited _ _ (fun _ _ => rfl)
  case testNow id =>
    cases h
    change JobLaw (actTestNow id s).1
    unfold actTestNow
    split
    · exact hs
    split
    · exact hs
    next r found =>
    split
    · exact hs
    next taken =>
    obtain ⟨mem, names⟩ := findSpan_some found
    have jobless : JobId.span id.toNat ∉ s.jobIds := by
      unfold State.refusesTest at taken
      rw [names] at taken
      repeat' split at taken
      all_goals cases taken
      next free _ => exact notMem_jobIds_of_jobPlace (by simpa using free)
    exact hs.tailOfDemandQueue jobless ⟨r, mem, names⟩
  case testCancel id =>
    cases h
    change JobLaw (actTestCancel id s).1
    unfold actTestCancel
    repeat' split
    any_goals exact hs
    next place _ => exact hs.of_onlyEnds (onlyEnds_cancelJob (holdsJobOf_of_jobPlace place))
  case clockSet time =>
    cases h
    change JobLaw (actClockSet time s).1
    unfold actClockSet
    split
    · exact hs
    · exact jobLaw_retestWindow
        (s := { s with timeBase := { s.timeBase with timeOfDay := time.toNat, nextAdvance := s.now + secondNs } })
        (.of_directory (s := s) rfl directory) (JobLaw.congr (s := s) hs rfl rfl rfl rfl) []
  case windowSet o c =>
    cases h
    change JobLaw (actWindowSet o c s).1
    unfold actWindowSet
    split
    · exact hs
    · exact jobLaw_retestWindow (s := { s with timeBase := { s.timeBase with openTime := o.toNat, closeTime := c.toNat } })
        (.of_directory (s := s) rfl directory) (JobLaw.congr (s := s) hs rfl rfl rfl rfl) []
  case classSet cls weight preemptible =>
    cases h
    change JobLaw (actClassSet cls weight preemptible s).1
    unfold actClassSet
    split
    · exact hs.congr rfl rfl rfl rfl
    · exact hs
  case coilSet bank length groupIndex =>
    cases h
    change JobLaw (actCoilSet bank length groupIndex s).1
    unfold actCoilSet
    repeat' split
    all_goals first | exact hs | exact hs.of_onlyEnds (onlyEnds_storeCoil ..)
  case bankRestore bank sense =>
    cases h
    change JobLaw (actBankRestore bank sense s).1
    unfold actBankRestore
    repeat' split
    all_goals first | exact hs | exact hs.of_onlyEnds (onlyEnds_restoreBank ..)
  case changesRead => cases h; exact hs.of_onlyEnds (onlyEnds_returnItems ..)
  case restart => cases h; exact jobLaw_restarted s
  all_goals exact hs.of_onlyEnds (.of_frame frame (of_decide_eq_true rfl))

/-! ### Events -/

theorem Channel.jobs_released (c : Channel) : c.released.jobs = c.jobs := by
  unfold Channel.released
  split
  next inhibited => rw [Channel.jobs, Channel.jobs, inhibited]; rfl
  all_goals rfl

theorem event_jobLaw {i : Instr} {s t : State}
    (touches : Part.apart (eventParts i) [.directory, .sched, .channels, .engine, .buffers] = false)
    (ran : exec i s = .next t) (directory : DirectoryLaw s) (hs : JobLaw s) : JobLaw t := by
  have reached (due : Nat) : JobLaw (s.reach due) := hs.of_onlyEnds (.of_frame (reach_frame s due) rfl)
  cases i <;> cases touches
  case inhibitAsserted =>
    have stops (u : State) (ch : Letter) (hu : JobLaw u) : JobLaw (u.inhibitChannel ch) :=
      hu.of_onlyEnds (onlyEnds_inhibitChannel u ch)
    have asserted : JobLaw { s with inputs := { s.inputs with inhibit := true } } :=
      hs.congr rfl rfl rfl rfl
    change execInhibitAsserted s = .next t at ran
    unfold execInhibitAsserted at ran
    dsimp only at ran
    split at ran <;> cases ran
    · exact eitherOrder_keeps (fun u hu => hu.of_onlyEnds (.of_frame (drawn_frame u) rfl)) stops asserted
    · exact stops _ _ (stops _ _ asserted)
  case inhibitReleased =>
    change execInhibitReleased s = .next t at ran
    unfold execInhibitReleased at ran
    split at ran <;> cases ran
    · refine hs.of_onlyEnds (.of_stand (fun _ => Nat.le_refl _) (fun k => ?_) (buffers_stand rfl) rfl)
      rw [count_flightIds, count_flightIds]
      change (s.channels.a.released).jobs.count k + (s.channels.b.released).jobs.count k + s.engine.jobs.count k = _
      rw [Channel.jobs_released, Channel.jobs_released]
    · exact hs
  case timeAdvance =>
    cases ran
    exact jobLaw_retestWindow (s := { s.reach s.timeBase.nextAdvance with timeBase := s.timeBase.advanced })
      (.of_directory (s := s) rfl directory) (JobLaw.congr (s := s) hs rfl rfl rfl rfl) _
  case settleCompletion l sense =>
    change execSettleCompletion l sense s = .next t at ran
    unfold execSettleCompletion at ran
    split at ran <;> cases ran
    · exact (reached _).of_onlyEnds (onlyEnds_settle ..)
    · exact hs
  case guardCompletion ch sum =>
    change execGuardCompletion ch sum s = .next t at ran
    unfold execGuardCompletion at ran
    split at ran <;> cases ran
    next busy => exact (reached _).of_onlyEnds (onlyEnds_guardDone (s := s.reach _) (congrArg Activity.flight? busy) _)
    all_goals exact hs
  case shotAccumulated ch samples =>
    change execShotAccumulated ch samples s = .next t at ran
    unfold execShotAccumulated at ran
    repeat' split at ran
    all_goals cases ran
    next stage f busy _ since _ _ =>
      refine (reached _).of_onlyEnds (onlyEnds_setChannel (s.reach _) ch ?_)
      rw [Channel.jobs_of_flight (f := { f with shotsDone := f.shotsDone + 1 }) rfl]
      exact (Channel.jobs_of_flight (c := s.channels.get ch) (congrArg Activity.flight? busy)).symm
    all_goals exact hs
  case acquisitionCompletion ch =>
    change execAcquisitionCompletion ch s = .next t at ran
    unfold execAcquisitionCompletion at ran
    repeat' split at ran
    all_goals cases ran
    next busy _ => exact (reached _).of_onlyEnds (onlyEnds_firstDone (s := s.reach _) (congrArg Activity.flight? busy))
    · exact hs
    next busy _ => exact (reached _).of_onlyEnds (onlyEnds_secondDone (s := s.reach _) (congrArg Activity.flight? busy))
    all_goals exact hs
  case dispatchPass =>
    cases ran
    exact jobLaw_dispatchPass hs _
  case analysisTake =>
    cases ran
    exact hs.of_onlyEnds (onlyEnds_takeHead s)
  case analysisCompletion =>
    change execAnalysisCompletion s = .next t at ran
    unfold execAnalysisCompletion at ran
    split at ran <;> cases ran
    · exact hs
    next a current => exact (reached _).analysed (a := a) current

/-! ### A step -/

theorem jobLaw_reset : HoldsAtReset JobLaw := by
  intro u straps inhibit
  refine jobLaw_of_none ?_ rfl
  cases inhibit <;> rfl

theorem step_keeps_jobLaw {s t : State} (directory : DirectoryLaw s) (law : JobLaw s) (ran : step s = .next t) : JobLaw t := by
  have reads : Reads [.directory, .sched, .channels, .engine, .buffers] JobLaw := by
    intro u v same hu
    have sched : v.sched = u.sched := same .sched (by simp)
    have channels : v.channels = u.channels := same .channels (by simp)
    have engine : v.engine = u.engine := same .engine (by simp)
    exact hu.of_onlyEnds (.of_stand (fun k => by rw [State.queuedIds, sched, State.queuedIds])
      (fun k => by rw [count_flightIds, count_flightIds, channels, engine]) (buffers_stand (same .buffers (by simp)))
      (core_of_directory (same .directory (by simp))))
  have relies : Reads [.directory] DirectoryLaw := reads_of_directory (fun _ _ => DirectoryLaw.of_directory)
  exact step_keeps_relying reads rfl relies rfl jobLaw_reset (fun i n act u kind hQ hu => act_jobLaw kind hQ hu)
    (fun i u v touches ran hQ hu => event_jobLaw touches ran hQ hu) directory law ran

end Sys2Proof.Machine

namespace Sys2Proof

open Machine in
/-- Settles O16: the jobs are counted over their queues, channels and the engine, and no operation adds one that is there. -/
theorem everyStepKeepsTheInhibitAndQueueLaws : Obligations.EveryStepKeepsTheInhibitAndQueueLaws :=
  fun _ _ ran => ⟨fun law => step_keeps_inhibitLaw law ran, fun law => step_keeps_queueLaw law ran,
    fun directory law => step_keeps_jobLaw directory law ran⟩

end Sys2Proof
end

section
/-! PROOFS. The law of the condition table and the law of its open conditions: what a result applied keeps. -/

namespace Sys2Proof.Machine

/-! ### A table under the law -/

/-- The law of the condition table, said of a table. -/
structure CondTable.Lawful (T : CondTable) : Prop where
  room    : T.conditions.length ≤ 96
  hits    : ∀ c ∈ T.conditions, c.hits ≤ 15
  unique  : (T.conditions.map Condition.tag).Nodup
  range   : ∀ c ∈ T.conditions, 1 ≤ c.tag ∧ c.tag ≤ 65535
  counter : T.tagCounter ≤ 65535

theorem tableLaw_iff (s : State) : TableLaw s ↔ s.table.Lawful :=
  ⟨fun ⟨room, hits, unique, range, counter⟩ => ⟨room, hits, unique, range, counter⟩,
    fun ⟨room, hits, unique, range, counter⟩ => ⟨room, hits, unique, range, counter⟩⟩

/-- What the law reads of a condition. -/
def Condition.count (c : Condition) : Nat × Nat := (c.tag, c.hits)

/-- A table that lost conditions, and whose others have the tags and the hits that they had. -/
theorem CondTable.Lawful.of_sublist {T U : CondTable} (law : T.Lawful)
    (fewer : (U.conditions.map Condition.count).Sublist (T.conditions.map Condition.count))
    (counter : U.tagCounter = T.tagCounter) : U.Lawful := by
  have was {c : Condition} (hc : c ∈ U.conditions) : ∃ b ∈ T.conditions, b.tag = c.tag ∧ b.hits = c.hits := by
    obtain ⟨b, hb, same⟩ := List.mem_map.mp (fewer.subset (List.mem_map_of_mem hc))
    exact ⟨b, hb, congrArg Prod.fst same, congrArg Prod.snd same⟩
  refine ⟨?_, fun c hc => ?_, ?_, fun c hc => ?_, counter ▸ law.counter⟩
  · simpa using fewer.length_le.trans (by simpa using law.room)
  · obtain ⟨b, hb, -, hits⟩ := was hc
    exact hits ▸ law.hits b hb
  · have tags := fewer.map Prod.fst
    rw [List.map_map, List.map_map] at tags
    exact tags.nodup law.unique
  · obtain ⟨b, hb, tag, -⟩ := was hc
    exact tag ▸ law.range b hb

theorem CondTable.Lawful.of_map {T : CondTable} (law : T.Lawful) {g : Condition → Condition}
    (same : ∀ c, (g c).count = c.count) : CondTable.Lawful { T with conditions := T.conditions.map g } := by
  refine law.of_sublist ?_ rfl
  rw [List.map_map]
  exact (List.map_congr_left (fun c _ => same c)).symm ▸ List.Sublist.refl (T.conditions.map Condition.count)

theorem CondTable.Lawful.of_filter {T : CondTable} (law : T.Lawful) (p : Condition → Bool) :
    CondTable.Lawful { T with conditions := T.conditions.filter p } := law.of_sublist (List.filter_sublist.map _) rfl

/-! ### Misses and matches -/

theorem Condition.count_miss (clearCount : Nat) (c : Condition) : (c.miss clearCount).count = c.count := by
  unfold Condition.miss
  split
  · rfl
  · rfl
  · split <;> rfl
  · rfl

theorem Condition.count_missUnpaired (r : Result) (pairs : List Candidate) (c : Condition) :
    (r.missUnpaired pairs c).count = c.count := by
  unfold Result.missUnpaired
  split
  · exact c.count_miss _
  · rfl

theorem satSucc_le (top n : Nat) : satSucc top n ≤ top := by
  unfold satSucc
  split
  next below => exact below
  next => exact Nat.le_refl top

theorem CondTable.Lawful.hit {T : CondTable} (law : T.Lawful) (tag confirmCount window : Nat) (f : Finding) :
    (T.modify tag (Condition.hit confirmCount window f)).Lawful := by
  have tags : (T.modify tag (Condition.hit confirmCount window f)).conditions.map Condition.tag =
      T.conditions.map Condition.tag := by
    change (T.conditions.map _).map _ = _
    rw [List.map_map]
    refine List.map_congr_left fun c _ => ?_
    change (if c.tag = tag then c.hit confirmCount window f else c).tag = c.tag
    split <;> rfl
  refine ⟨by simpa [CondTable.modify] using law.room, fun c hc => ?_, tags ▸ law.unique, fun c hc => ?_, law.counter⟩
  · obtain ⟨b, hb, rfl⟩ := List.mem_map.mp hc
    split
    · exact satSucc_le ..
    · exact law.hits b hb
  · have : c.tag ∈ T.conditions.map Condition.tag := tags ▸ List.mem_map_of_mem hc
    obtain ⟨b, hb, same⟩ := List.mem_map.mp this
    exact same ▸ law.range b hb

/-! ### Creation -/

theorem nextTag_le (inUse : List Nat) (fuel : Nat) : ∀ t, t ≤ 65535 → nextTag inUse fuel t ≤ 65535 := by
  induction fuel with
  | zero => exact fun _ ht => ht
  | succ fuel ih =>
    intro t ht
    unfold nextTag
    split
    · exact ih _ (by unfold wrapSucc; omega)
    · exact ht

/-- A condition with a fresh tag at the end of a table that has room for it. -/
theorem CondTable.Lawful.add {T : CondTable} (law : T.Lawful) {c : Condition} (room : T.conditions.length < 96)
    (tag : c.tag = freshTag T.conditions T.tagCounter) (hits : c.hits ≤ 15) :
    CondTable.Lawful { T with conditions := T.conditions ++ [c], tagCounter := wrapSucc c.tag } := by
  obtain ⟨nonzero, fresh⟩ := freshTag_fresh T.conditions T.tagCounter room
  rw [← tag] at nonzero fresh
  refine ⟨?_, fun d hd => ?_, ?_, fun d hd => ?_, ?_⟩
  · simpa using room
  · rcases List.mem_append.mp hd with old | new
    · exact law.hits d old
    · exact List.mem_singleton.mp new ▸ hits
  · rw [List.map_append, List.nodup_append]
    refine ⟨law.unique, by simp, fun a ha b hb => ?_⟩
    obtain ⟨d, hd, rfl⟩ := List.mem_map.mp ha
    rw [List.map_singleton, List.mem_singleton] at hb
    exact hb ▸ fresh d hd
  · rcases List.mem_append.mp hd with old | new
    · exact law.range d old
    · rw [List.mem_singleton.mp new]
      exact ⟨Nat.pos_of_ne_zero nonzero, tag ▸ nextTag_le _ _ _ law.counter⟩
  · change wrapSucc c.tag ≤ 65535
    unfold wrapSucc
    omega

theorem mem_of_oldest {window : Nat} {l : List Condition} {d : Condition} (h : oldest window l = some d) : d ∈ l := by
  have found := isOldest_oldest window l
  rw [h] at found
  obtain ⟨before, after, rfl, -⟩ := found
  simp

/-- The condition displaced is one of the candidates. -/
theorem mem_of_displaced {m : SeverityMap} {window : Nat} {kind : FaultKind} {l : List Condition} {d : Condition}
    (h : displaced m window kind l = some d) : d ∈ l := by
  unfold displaced at h
  rcases Option.or_eq_some_iff.mp h with found | ⟨-, h⟩
  · exact (List.mem_filter.mp (mem_of_oldest found)).1
  rcases Option.or_eq_some_iff.mp h with found | ⟨-, found⟩
  · exact (List.mem_filter.mp (mem_of_oldest found)).1
  · exact (List.mem_filter.mp (List.mem_filter.mp (mem_of_oldest found)).1).1

/-- What a creation does to the table: it adds a condition where there is room, at the cost of one displaced condition where
there is none, or it changes nothing. -/
theorem create_table (k : Folding) (r : Result) (f : Finding) :
    (∃ l, l.Sublist k.table.conditions ∧ (k.table.conditions.length ≤ 96 → l.length < 96) ∧ k.create r f = k.add r l f) ∨
      (k.create r f).table = k.table := by
  unfold Folding.create
  dsimp only
  split
  next room => exact .inl ⟨_, .refl _, fun _ => room, rfl⟩
  next full =>
  split
  next d displaces =>
    refine .inl ⟨_, List.filter_sublist, fun room => ?_, rfl⟩
    have mem := (List.mem_filter.mp (mem_of_displaced displaces)).1
    refine Nat.lt_of_lt_of_le ?_ room
    exact List.length_filter_lt_length_iff_exists.mpr ⟨d, mem, by simp⟩
  next => exact .inr rfl

theorem CondTable.Lawful.create {k : Folding} (law : k.table.Lawful) (r : Result) (f : Finding) :
    (k.create r f).table.Lawful := by
  rcases create_table k r f with ⟨l, fewer, room, added⟩ | same
  · rw [added]
    have less : CondTable.Lawful { k.table with conditions := l } := law.of_sublist (fewer.map _) rfl
    exact less.add (c := r.newCondition (freshTag l k.table.tagCounter) f) (room law.room) rfl (show 1 ≤ 15 by decide)
  · rwa [same]

theorem CondTable.Lawful.apply {T : CondTable} (law : T.Lawful) (r : Result) : (T.apply r).table.Lawful :=
  apply_keeps (P := fun k => k.table.Lawful) (law.of_map (Condition.count_missUnpaired r _)) fun _ _ hk =>
    take_keeps (P := fun k => k.table.Lawful) (fun _ _ => hk.hit ..) (hk.create ..)

theorem Condition.count_retireFor (id : Nat) (c : Condition) : (c.retireFor id).count = c.count := by
  unfold Condition.retireFor
  split <;> rfl

theorem Condition.count_restarted (retiring : List Nat) (c : Condition) : (c.restarted retiring).count = c.count := by
  unfold Condition.restarted
  split <;> rfl

theorem Condition.count_returned {c d : Condition} (h : c.returned = some d) : d.count = c.count := by
  unfold Condition.returned at h
  split at h <;> cases h
  rfl

/-! ### One condition under the law of R140 and R141 -/

/-- The law of misses and of open conditions, said of one condition, for the spans that exist. -/
structure Condition.Lawful (held : Nat → Prop) (c : Condition) : Prop where
  misses   : c.misses ≤ 7
  clearing : c.state = .clearing → c.misses ≤ 6
  suspect  : c.state = .suspect → c.misses = 0
  named    : c.state.isOpen = true → held c.span

/-- The span exists. -/
def State.Holds (s : State) (id : Nat) : Prop := ∃ r ∈ s.spans, r.id = id

theorem conditionLaw_iff (s : State) : ConditionLaw s ↔ ∀ c ∈ s.table.conditions, c.Lawful s.Holds :=
  ⟨fun law c hc => ⟨law.misses c hc, law.clearing c hc, law.suspect c hc, law.named c hc⟩,
    fun law => ⟨fun c hc => (law c hc).misses, fun c hc => (law c hc).clearing, fun c hc => (law c hc).suspect,
      fun c hc => (law c hc).named⟩⟩

/-- A condition retired, where it was open, obeys the law whatever spans exist. -/
theorem Condition.Lawful.retired {held held' : Nat → Prop} {c d : Condition} (law : c.Lawful held) (misses : d.misses = c.misses)
    (retired : d.state = .retired) : d.Lawful held' := by
  refine ⟨misses ▸ law.misses, fun h => ?_, fun h => ?_, fun h => ?_⟩ <;> rw [retired] at h <;> cases h

/-- A condition whose state, misses and span stand. -/
theorem Condition.Lawful.congr {held held' : Nat → Prop} {c d : Condition} (law : c.Lawful held) (misses : d.misses = c.misses)
    (state : d.state = c.state) (span : d.span = c.span) (keeps : held c.span → held' c.span) : d.Lawful held' :=
  ⟨misses ▸ law.misses, fun h => misses ▸ law.clearing (state ▸ h), fun h => misses ▸ law.suspect (state ▸ h),
    fun h => span ▸ keeps (law.named (state ▸ h))⟩

theorem Condition.Lawful.miss {held : Nat → Prop} {c : Condition} (law : c.Lawful held) {clearCount : Nat} (most : clearCount ≤ 7) :
    (c.miss clearCount).Lawful held := by
  unfold Condition.miss
  split
  next => exact law.retired rfl rfl
  next confirmed =>
    refine ⟨show 1 ≤ 7 by decide, fun _ => show 1 ≤ 6 by decide, fun suspect => ?_, fun _ => law.named (by rw [confirmed]; rfl)⟩
    dsimp only at suspect
    split at suspect <;> cases suspect
  next clearing =>
    have misses := law.clearing clearing
    split
    · exact ⟨show c.misses + 1 ≤ 7 by omega, nofun, nofun, nofun⟩
    · refine ⟨show c.misses + 1 ≤ 7 by omega, fun _ => show c.misses + 1 ≤ 6 by omega, fun suspect => ?_, law.named⟩
      rw [show _ = CondState.clearing from clearing] at suspect
      cases suspect
  next => exact law

theorem Condition.Lawful.missUnpaired {held : Nat → Prop} {c : Condition} (law : c.Lawful held) {r : Result}
    (most : r.clearCount ≤ 7) (pairs : List Candidate) : (r.missUnpaired pairs c).Lawful held := by
  unfold Result.missUnpaired
  split
  · exact law.miss most
  · exact law

theorem Condition.Lawful.hit {held : Nat → Prop} {c : Condition} (law : c.Lawful held) (confirmCount window : Nat) (f : Finding) :
    (c.hit confirmCount window f).Lawful held := by
  refine ⟨Nat.zero_le _, fun _ => Nat.zero_le _, fun _ => rfl, fun isOpen => law.named ?_⟩
  change (c.state.afterMatch confirmCount (satSucc 15 c.hits)).isOpen = true at isOpen
  cases state : c.state
  case retired => rw [state] at isOpen; cases isOpen
  all_goals rfl

theorem lawful_newCondition {held : Nat → Prop} {r : Result} (span : held r.span) (tag : Nat) (f : Finding) :
    (r.newCondition tag f).Lawful held := ⟨Nat.zero_le _, fun _ => Nat.zero_le _, fun _ => rfl, fun _ => span⟩

/-- A result of a span that exists keeps the law of every condition. -/
theorem lawful_apply {held : Nat → Prop} {T : CondTable} (law : ∀ c ∈ T.conditions, c.Lawful held) {r : Result}
    (most : r.clearCount ≤ 7) (span : held r.span) : ∀ c ∈ (T.apply r).table.conditions, c.Lawful held := by
  refine apply_keeps (P := fun k => ∀ c ∈ k.table.conditions, c.Lawful held) (fun c hc => ?missed) fun k f hk =>
    take_keeps (P := fun k => ∀ c ∈ k.table.conditions, c.Lawful held) (fun p _ c hc => ?hit) (fun c hc => ?created)
  case missed =>
    obtain ⟨b, hb, rfl⟩ := List.mem_map.mp hc
    exact (law b hb).missUnpaired most _
  case hit =>
    obtain ⟨b, hb, rfl⟩ := List.mem_map.mp hc
    split
    · exact (hk b hb).hit ..
    · exact hk b hb
  case created =>
    rcases create_table k r f.1 with ⟨l, fewer, -, added⟩ | same
    · rw [added] at hc
      rcases List.mem_append.mp hc with old | new
      · exact hk c (fewer.subset old)
      · rw [List.mem_singleton.mp new]
        exact lawful_newCondition span ..
    · rw [same] at hc
      exact hk c hc

end Sys2Proof.Machine
end

section
/-! PROOFS. Every step keeps the law of the condition table, the law of its conditions and the law of the input copy (O18), and
the reset values obey every law (O13). -/

namespace Sys2Proof.Machine

/-! ### The condition table -/

theorem removeJob_table (s : State) (id : Nat) (place : JobPlace) : (s.removeJob id place).table = s.table :=
  (removeJob_frame s id place).same .table (by decide)

theorem act_tableLaw {i : Instr} {n : Nat} {act : State → State × Reply} (h : requestAct i = some (n, act)) {s : State}
    (law : s.table.Lawful) : (act s).1.table.Lawful := by
  have frame := act_frame h s
  cases i
  case spanRetire id =>
    cases h
    change (actSpanRetire id s).1.table.Lawful
    unfold actSpanRetire retireSpan
    repeat' split
    any_goals exact law
    next p _ _ =>
      have removed : (s.removeJob id.toNat p).table.Lawful := (removeJob_table s id.toNat p) ▸ law
      exact removed.of_map (Condition.count_retireFor _)
    · exact law.of_map (Condition.count_retireFor _)
  case condAck tag =>
    cases h
    change (actCondAck tag s).1.table.Lawful
    unfold actCondAck
    repeat' split
    any_goals exact law
    refine law.of_map (fun c => ?_)
    split <;> rfl
  case condRetire tag =>
    cases h
    change (actCondRetire tag s).1.table.Lawful
    unfold actCondRetire
    repeat' split
    any_goals exact law
    exact law.of_filter _
  case severitySet b =>
    cases h
    exact law.of_sublist (.refl _) rfl
  case changesRead =>
    cases h
    refine law.of_sublist ?_ rfl
    change ((s.table.conditions.filterMap _).map _).Sublist _
    rw [List.map_filterMap]
    refine filterMap_sublist_map (fun c => ?_) _
    split
    · cases returned : c.returned with
      | none => exact .inl rfl
      | some d => exact .inr (congrArg some (Condition.count_returned returned))
    · exact .inr rfl
  case restart => cases h; exact law.of_map (Condition.count_restarted _)
  all_goals exact (show _ = s.table from frame.same .table (of_decide_eq_true rfl)) ▸ law

theorem analysisCompletion_table {s t : State} (ran : exec .analysisCompletion s = .next t) :
    t = s ∨ ∃ a, s.engine.current = some a ∧ t.table = ((s.reach a.due).dispose a).table ∧
      t.directory = ((s.reach a.due).dispose a).directory := by
  change execAnalysisCompletion s = .next t at ran
  unfold execAnalysisCompletion at ran
  split at ran <;> cases ran
  · exact .inl rfl
  next a current =>
    have frame := endAnalysis_frame ((s.reach a.due).dispose a) a
    exact .inr ⟨a, current, frame.same .table (by decide), frame.same .directory (by decide)⟩

theorem tableLaw_reset : HoldsAtReset TableLaw := fun _ _ _ =>
  ⟨Nat.zero_le _, by rintro _ ⟨⟩, .nil, by rintro _ ⟨⟩, show 1 ≤ 65535 by decide⟩

theorem step_keeps_tableLaw {s t : State} (law : TableLaw s) (ran : step s = .next t) : TableLaw t := by
  have reads : Reads [.table] TableLaw := by
    intro u v same hu
    have table : v.table = u.table := same .table (by simp)
    rw [tableLaw_iff] at hu ⊢
    exact table ▸ hu
  refine step_keeps reads rfl tableLaw_reset (fun i n act u kind hu => (tableLaw_iff _).mpr (act_tableLaw kind ((tableLaw_iff _).mp hu)))
    (fun i u v touches ran hu => ?_) law ran
  cases i <;> cases touches
  case analysisCompletion =>
    rw [tableLaw_iff] at hu ⊢
    rcases analysisCompletion_table ran with rfl | ⟨a, -, table, -⟩
    · exact hu
    rw [table]
    rcases dispose_table (u.reach a.due) a with same | ⟨id, retired⟩ | ⟨c, r, -, -, -, applied⟩
    · rw [same]
      exact hu
    · rw [retired]
      exact hu.of_map (Condition.count_retireFor id)
    · rw [applied]
      exact hu.apply r

/-! ### The input copy (R107) -/

/-- Every span of the directory, and the span whose values the current job copied, has its analysis fields in range. -/
structure CopiesInRange (s : State) : Prop where
  spans : ∀ r ∈ s.spans, r.clamped.InRange
  input : InputLaw s

theorem DirectoryLaw.copiesInRange {s : State} (law : DirectoryLaw s) (input : InputLaw s) : CopiesInRange s :=
  ⟨fun r hr => (law.fields r hr).clamped, input⟩

theorem CopiesInRange.of_spans {s t : State} (h : CopiesInRange s)
    (spans : ∀ q ∈ t.spans, ∃ r ∈ s.spans, r.clamped = q.clamped)
    (input : t.engine.current = none ∨ t.engine.current.map Analysis.input = s.engine.current.map Analysis.input) : CopiesInRange t := by
  refine ⟨fun q hq => ?_, fun a c current subject => ?_⟩
  · obtain ⟨r, hr, same⟩ := spans q hq
    exact same ▸ h.spans r hr
  · rcases input with none | same
    · rw [none] at current
      cases current
    · rw [current, Option.map_some] at same
      obtain ⟨b, hb, input⟩ := Option.map_eq_some_iff.mp same.symm
      exact h.input b c hb (input ▸ subject)

theorem CopiesInRange.of_core {s t : State} (h : CopiesInRange s) (core : t.core = s.core)
    (input : t.engine.current = s.engine.current) : CopiesInRange t := by
  refine h.of_spans (fun q hq => ?_) (.inr (by rw [input]))
  obtain ⟨r, hr, same⟩ := exists_of_core core hq
  exact ⟨r, hr, (congrArg SpanRecord.clamped same :)⟩

/-- What the engine takes up is a copy of a span of the directory. -/
theorem CopiesInRange.takeHead {s : State} (h : CopiesInRange s) : CopiesInRange s.takeHead := by
  unfold State.takeHead
  split
  next f rest _ _ =>
    split
    next input copied =>
      refine ⟨h.spans, fun a c current subject => ?_⟩
      cases current
      unfold State.inputCopy at copied
      split at copied <;> cases copied
      next made =>
      unfold State.subjectOf at made
      cases subject
      split at made
      · cases made
      split at made
      · cases made
      next r found =>
      split at made <;> cases made
      exact h.spans r (findSpan_some found).1
    next => exact h
  next => exact h

theorem CopiesInRange.handOn {s : State} (h : CopiesInRange s) (ch : Letter) (f : Flight) : CopiesInRange (s.handOn ch f) := by
  unfold State.handOn
  exact CopiesInRange.takeHead (h.of_core rfl rfl)

theorem CopiesInRange.writeTrace {s : State} (h : CopiesInRange s) (ch : Letter) (f : Flight) (role : Role) :
    CopiesInRange (s.writeTrace ch f role) := h.of_core rfl rfl

theorem CopiesInRange.firstDone {s : State} (h : CopiesInRange s) (ch : Letter) (f : Flight) : CopiesInRange (s.firstDone ch f) := by
  unfold State.firstDone
  dsimp only
  split
  · exact h.of_core rfl rfl
  · exact (h.writeTrace ch f .nm1625).handOn ch f

theorem CopiesInRange.leaveAnalysisQueue {s : State} (h : CopiesInRange s) (j : JobId) : CopiesInRange (s.leaveAnalysisQueue j) := by
  unfold State.leaveAnalysisQueue
  exact CopiesInRange.takeHead (h.of_core rfl rfl)

theorem CopiesInRange.closeAtChannel {s : State} (h : CopiesInRange s) (ch : Letter) : CopiesInRange (s.closeAtChannel ch) := by
  have cut (f : Flight) : CopiesInRange (s.cut1310 ch f) := by
    unfold State.cut1310
    split
    · have filled : CopiesInRange (s.fillBuffer f.work.id .nm1310
          (levelTrace f.snapshot f.shotsDone (s.channels.get ch).accumulator)) := h.of_core rfl rfl
      exact filled.handOn ..
    · have freed : CopiesInRange (s.free1310 f.work.id) := h.of_core rfl rfl
      exact freed.handOn ..
  unfold State.closeAtChannel
  repeat' split
  all_goals first | exact h | exact cut _ | exact h.of_core rfl rfl

theorem CopiesInRange.closeWindow {s : State} (h : CopiesInRange s) : CopiesInRange s.closeWindow := by
  have discarded : CopiesInRange (({ s with timeBase := { s.timeBase with windowOpen := false } } : State).discardQueued) :=
    h.of_core (core_map rfl (Entry.core_missIfIn _)) rfl
  have atChannels := closeAtChannels_keeps (P := CopiesInRange) (fun u hu => hu.of_core rfl rfl)
    (fun u ch hu => hu.closeAtChannel ch) discarded
  exact CopiesInRange.of_core atChannels rfl rfl

theorem CopiesInRange.retestWindow {s : State} (h : CopiesInRange s) (held : List Nat) : CopiesInRange (s.retestWindow held) := by
  refine retestWindow_keeps (fun _ => ?_) (fun _ => h.closeWindow) h
  have passed := (dispatchPass_frame (s.raiseWindow.drawn.setAside held) s.drawnSenses).same .engine (by decide)
  exact h.of_core (core_dispatchPass (s.raiseWindow.drawn.setAside held) s.drawnSenses) (congrArg Engine.current passed)

theorem CopiesInRange.removeJob {s : State} (h : CopiesInRange s) (id : Nat) (place : JobPlace) : CopiesInRange (s.removeJob id place) := by
  cases place with
  | classQueue c => exact h.of_core rfl rfl
  | demandQueue learn => exact h.of_core rfl rfl
  | channel ch f =>
    exact h.of_core (soft_abortChannel s ch).core (congrArg Engine.current ((abortChannel_frame s ch).same .engine (by decide)))
  | waiting f => exact h.leaveAnalysisQueue _
  | analysing a => exact h

theorem CopiesInRange.cancelJob {s : State} (h : CopiesInRange s) {id : Nat} {place : JobPlace} (holds : place.HoldsJobOf s id) :
    CopiesInRange (cancelJob s id place) := by
  have written {u : State} (hu : CopiesInRange u) (learn : Bool) : CopiesInRange (u.writeCancelled id learn) :=
    hu.of_core (soft_writeCancelled ..).core
      (congrArg Engine.current ((writeCancelled_frame u id learn).same .engine (by decide)))
  unfold Machine.cancelJob
  split
  next a =>
    split
    · exact h
    · have marked : CopiesInRange (s.markCancelled a) := by
        refine h.of_spans (fun q hq => ⟨q, hq, rfl⟩) (.inr ?_)
        rw [holds.1]
        rfl
      exact written marked _
  all_goals exact written (h.removeJob ..) _

theorem clamped_dispose {s : State} {a : Analysis} {q : SpanRecord} (hq : q ∈ (s.dispose a).spans) :
    ∃ r ∈ s.spans, r.clamped = q.clamped := by
  have of_core {u : State} (core : u.core = s.core) {q : SpanRecord} (hq : q ∈ u.spans) : ∃ r ∈ s.spans, r.clamped = q.clamped := by
    obtain ⟨r, hr, same⟩ := exists_of_core core hq
    exact ⟨r, hr, (congrArg SpanRecord.clamped same :)⟩
  rcases dispose_cases s a with core | ⟨id, -, empty⟩ | ⟨id, x, -, adopted⟩
  · exact of_core core hq
  · rw [empty, spans_becomeEmpty] at hq
    exact ⟨q, (List.mem_filter.mp hq).1, rfl⟩
  · rw [State.spans, adopted, ← State.spans, spans_modifySpan] at hq
    obtain ⟨p, hp, rfl⟩ := List.mem_map.mp hq
    have same : (if p.id = id then SpanRecord.adopt (learnedList x) p else p).clamped = p.clamped := by split <;> rfl
    rw [same]
    exact of_core (core_writeOutcome s id .clean (some x.endDistance)) hp

theorem CopiesInRange.analysed {s : State} (h : CopiesInRange s) (a : Analysis) : CopiesInRange ((s.dispose a).endAnalysis a) := by
  unfold State.endAnalysis
  exact CopiesInRange.takeHead (h.of_spans (fun q hq => clamped_dispose hq) (.inl rfl))

theorem act_inputLaw {i : Instr} {n : Nat} {act : State → State × Reply} (h : requestAct i = some (n, act)) {s : State}
    (copies : CopiesInRange s) : InputLaw (act s).1 := by
  have frame := act_frame h s
  cases i
  case spanRetire id =>
    cases h
    change InputLaw (actSpanRetire id s).1
    unfold actSpanRetire retireSpan
    repeat' split
    any_goals exact copies.input
    exact (copies.removeJob ..).input
  case testCancel id =>
    cases h
    change InputLaw (actTestCancel id s).1
    unfold actTestCancel
    repeat' split
    any_goals exact copies.input
    next place _ => exact (copies.cancelJob (holdsJobOf_of_jobPlace place)).input
  case clockSet time =>
    cases h
    change InputLaw (actClockSet time s).1
    unfold actClockSet
    split
    · exact copies.input
    · have set : CopiesInRange { s with timeBase := { s.timeBase with timeOfDay := time.toNat, nextAdvance := s.now + secondNs } } :=
        copies.of_core rfl rfl
      exact (set.retestWindow []).input
  case windowSet o c =>
    cases h
    change InputLaw (actWindowSet o c s).1
    unfold actWindowSet
    split
    · exact copies.input
    · have set : CopiesInRange { s with timeBase := { s.timeBase with openTime := o.toNat, closeTime := c.toNat } } :=
        copies.of_core rfl rfl
      exact (set.retestWindow []).input
  case restart =>
    cases h
    intro a c current
    cases current
  all_goals
    have engine : _ = s.engine := frame.same .engine (of_decide_eq_true rfl)
    intro a c current
    rw [engine] at current
    exact copies.input a c current

theorem event_inputLaw {i : Instr} {s t : State} (touches : Part.apart (eventParts i) [.engine] = false)
    (ran : exec i s = .next t) (copies : CopiesInRange s) : InputLaw t := by
  have reached (due : Nat) : CopiesInRange (s.reach due) := copies.of_core rfl rfl
  cases i <;> cases touches
  case timeAdvance =>
    cases ran
    have advanced : CopiesInRange { s.reach s.timeBase.nextAdvance with timeBase := s.timeBase.advanced } :=
      copies.of_core rfl rfl
    exact (advanced.retestWindow _).input
  case acquisitionCompletion ch =>
    change execAcquisitionCompletion ch s = .next t at ran
    unfold execAcquisitionCompletion at ran
    repeat' split at ran
    all_goals cases ran
    next f _ _ => exact ((reached _).firstDone ch f).input
    · exact copies.input
    next f _ _ => exact ((reached _).writeTrace ch f .nm1310 |>.handOn ..).input
    all_goals exact copies.input
  case analysisTake =>
    cases ran
    exact copies.takeHead.input
  case analysisCompletion =>
    change execAnalysisCompletion s = .next t at ran
    unfold execAnalysisCompletion at ran
    split at ran <;> cases ran
    · exact copies.input
    · exact ((reached _).analysed _).input

theorem inputLaw_reset : HoldsAtReset InputLaw := by
  intro u straps inhibit a c current
  cases current

theorem reads_inputLaw : Reads [.engine] InputLaw := by
  intro u v same hu a c current
  have engine : v.engine = u.engine := same .engine (by simp)
  rw [engine] at current
  exact hu a c current

theorem step_keeps_inputLaw {s t : State} (directory : DirectoryLaw s) (law : InputLaw s) (ran : step s = .next t) : InputLaw t :=
  step_keeps_relying reads_inputLaw rfl (reads_of_directory (fun _ _ => DirectoryLaw.of_directory)) rfl inputLaw_reset
    (fun _ _ _ _ kind hQ hu => act_inputLaw kind (hQ.copiesInRange hu))
    (fun _ _ _ touches ran hQ hu => event_inputLaw touches ran (hQ.copiesInRange hu)) directory law ran

end Sys2Proof.Machine
end

section
/-! PROOFS. Every step keeps the law of the conditions; O18 and O13. -/

namespace Sys2Proof.Machine

/-! ### Spans that a request keeps -/

/-- Every request but SPAN_RETIRE and RESTART keeps every span. -/
theorem act_keepsSpans {i : Instr} {n : Nat} {act : State → State × Reply} (h : requestAct i = some (n, act))
    (notRetire : ∀ id, i ≠ .spanRetire id) (notRestart : i ≠ .restart) (s : State) : KeepsSpans s (act s).1 := by
  cases i
  case spanRetire id => exact absurd rfl (notRetire id)
  case restart => exact absurd rfl notRestart
  case spanPut b => cases h; exact keepsSpans_actSpanPut b s
  case changesRead => cases h; exact keepsSpans_returnItems s _
  case marksAppend body =>
    cases h
    rcases actMarksAppend_cases body s with same | ⟨r, marks, -, -, joined⟩
    · rw [same]
      exact fun _ held => held
    · rw [joined]
      exact keepsSpans_modifySpan s (fun _ _ => rfl)
  case marksClear id =>
    cases h
    rcases actMarksClear_cases id s with same | ⟨r, -, cleared⟩
    · rw [same]
      exact fun _ held => held
    · rw [cleared]
      exact keepsSpans_modifySpan s (fun _ _ => rfl)
  all_goals exact .of_core (act_core h rfl s)

/-! ### The law of the conditions over an operation -/

theorem ConditionLaw.of_table {s t : State} (law : ConditionLaw s) (table : t.table = s.table) (keeps : KeepsSpans s t) :
    ConditionLaw t := by
  rw [conditionLaw_iff] at law ⊢
  rw [table]
  exact fun c hc => (law c hc).congr rfl rfl rfl (keeps c.span)

/-- An operation that maps the conditions, each kept or retired. -/
theorem ConditionLaw.of_map {s t : State} (law : ConditionLaw s) {g : Condition → Condition}
    (conditions : t.table.conditions = s.table.conditions.map g) (misses : ∀ c, (g c).misses = c.misses)
    (retires : ∀ c, (g c).state = .retired ∨ ((g c).state = c.state ∧ (g c).span = c.span ∧
      (c.state.isOpen = true → s.Holds c.span → t.Holds c.span))) : ConditionLaw t := by
  rw [conditionLaw_iff] at law ⊢
  rw [conditions]
  intro d hd
  obtain ⟨c, hc, rfl⟩ := List.mem_map.mp hd
  rcases retires c with retired | ⟨state, span, held⟩
  · exact (law c hc).retired (misses c) retired
  · refine ⟨misses c ▸ (law c hc).misses, fun h => misses c ▸ (law c hc).clearing (state ▸ h),
      fun h => misses c ▸ (law c hc).suspect (state ▸ h), fun h => span ▸ ?_⟩
    have isOpen : c.state.isOpen = true := state ▸ h
    exact held isOpen ((law c hc).named isOpen)

/-- The open conditions of a span retired: the span may be gone after it, and every other stays. -/
theorem ConditionLaw.retireConditions {s t : State} (law : ConditionLaw s) {id : Nat}
    (table : t.table = (s.retireConditions id).table) (keeps : ∀ k, k ≠ id → s.Holds k → t.Holds k) : ConditionLaw t := by
  refine law.of_map (g := Condition.retireFor id) (by rw [table]; rfl) (fun c => ?_) (fun c => ?_)
  · unfold Condition.retireFor
    split <;> rfl
  · unfold Condition.retireFor
    split
    · exact .inl rfl
    next other =>
      refine .inr ⟨rfl, rfl, fun isOpen held => keeps c.span (fun same => other ⟨same, isOpen⟩) held⟩

theorem ConditionLaw.becomeEmpty {s : State} (law : ConditionLaw s) (id : Nat) : ConditionLaw (s.becomeEmpty id) :=
  law.retireConditions rfl (fun _ other held => held_becomeEmpty other held)

theorem ConditionLaw.restarted {s : State} (law : ConditionLaw s) : ConditionLaw s.restarted := by
  refine law.of_map (g := Condition.restarted s.retiringSpans) rfl (fun c => ?_) (fun c => ?_)
  · unfold Condition.restarted
    split <;> rfl
  · unfold Condition.restarted
    split
    · exact .inl rfl
    next other =>
      refine .inr ⟨rfl, rfl, fun isOpen ⟨r, hr, names⟩ => ?_⟩
      have stays : r.state ≠ .retiring := by
        intro retiring
        have mem : r.id ∈ s.retiringSpans := List.mem_map_of_mem (List.mem_filter.mpr ⟨hr, by simp [retiring]⟩)
        exact other ⟨List.contains_iff_mem.mpr (names ▸ mem), isOpen⟩
      refine ⟨r.restarted s.scheduledSpans, ?_, ?_⟩
      · rw [spans_restarted]
        exact List.mem_map_of_mem (List.mem_filter.mpr ⟨hr, bne_iff_ne.mpr stays⟩)
      · exact (congrArg SpanRecord.id (core_restartedRecord _ r)).trans names

theorem ConditionLaw.returnItems {s : State} (law : ConditionLaw s) (items : List Item) : ConditionLaw (s.returnItems items) := by
  rw [conditionLaw_iff] at law ⊢
  intro d hd
  obtain ⟨c, hc, returned⟩ := List.mem_filterMap.mp hd
  have keeps : s.Holds c.span → (s.returnItems items).Holds c.span := keepsSpans_returnItems s items c.span
  split at returned
  · unfold Condition.returned at returned
    split at returned <;> cases returned
    exact (law c hc).congr rfl rfl rfl keeps
  · cases returned
    exact (law d hc).congr rfl rfl rfl keeps

theorem act_conditionLaw {i : Instr} {n : Nat} {act : State → State × Reply} (h : requestAct i = some (n, act)) {s : State}
    (law : ConditionLaw s) : ConditionLaw (act s).1 := by
  have frame := act_frame h s
  cases i
  case spanRetire id =>
    cases h
    change ConditionLaw (actSpanRetire id s).1
    unfold actSpanRetire retireSpan
    repeat' split
    · exact law
    · exact law
    · exact law.of_table rfl (.of_core (core_modifySpan s _ (fun _ => rfl)))
    next p _ _ =>
      exact (law.of_table (removeJob_table s id.toNat p) (.of_core (soft_removeJob s id.toNat p).core)).becomeEmpty _
    · exact law.becomeEmpty _
  case condAck tag =>
    cases h
    change ConditionLaw (actCondAck tag s).1
    unfold actCondAck
    repeat' split
    any_goals exact law
    refine law.of_map rfl (fun c => ?_) (fun c => ?_)
    · split <;> rfl
    · split <;> exact .inr ⟨rfl, rfl, fun _ held => held⟩
  case condRetire tag =>
    cases h
    change ConditionLaw (actCondRetire tag s).1
    unfold actCondRetire
    repeat' split
    any_goals exact law
    rw [conditionLaw_iff] at law ⊢
    exact fun c hc => law c (List.mem_filter.mp hc).1
  case severitySet b =>
    cases h
    rw [conditionLaw_iff] at law ⊢
    exact law
  case changesRead => cases h; exact law.returnItems _
  case restart => cases h; exact law.restarted
  all_goals exact law.of_table (frame.same .table (of_decide_eq_true rfl)) (act_keepsSpans h (by rintro _ ⟨⟩) (by rintro ⟨⟩) s)

/-- What an analysis completion keeps of the conditions: a result is applied with the clear count that the input copied. -/
theorem conditionLaw_dispose {s : State} {a : Analysis} (input : InputLaw s) (current : s.engine.current = some a)
    (law : ConditionLaw s) : ConditionLaw (s.dispose a) := by
  have tabled (keeps : KeepsSpans s (s.dispose a)) : ConditionLaw (s.dispose a) := by
    rcases dispose_table s a with same | ⟨id, retired⟩ | ⟨c, r, subject, count, held, applied⟩
    · exact law.of_table same keeps
    · exact law.retireConditions retired (fun k _ => keeps k)
    · rw [conditionLaw_iff] at law ⊢
      have most : r.clearCount ≤ 7 := count ▸ (input a c current subject).clearCount.2
      obtain ⟨q, found⟩ := Option.isSome_iff_exists.mp held
      rw [applied]
      exact fun d hd => (lawful_apply law most ⟨q, findSpan_some found⟩ d hd).congr rfl rfl rfl (keeps d.span)
  rcases dispose_cases s a with core | ⟨id, -, empty⟩ | ⟨id, x, -, adopted⟩
  · exact tabled (.of_core core)
  · rw [empty]
    exact law.becomeEmpty id
  · refine tabled (fun k held => ?_)
    rw [State.spans, adopted]
    exact keepsSpans_modifySpan _ (f := SpanRecord.adopt (learnedList x)) (fun _ same => same) k
      (held_of_core (core_writeOutcome s id .clean (some x.endDistance)) held)

theorem event_conditionLaw {i : Instr} {s t : State} (touches : Part.apart (eventParts i) [.directory, .table] = false)
    (ran : exec i s = .next t) (input : InputLaw s) (law : ConditionLaw s) : ConditionLaw t := by
  cases i <;> cases touches
  case analysisCompletion =>
    rcases analysisCompletion_table ran with rfl | ⟨a, current, table, directory⟩
    · exact law
    have reached : ConditionLaw (s.reach a.due) := law.of_table rfl (.of_core rfl)
    have disposed : ConditionLaw ((s.reach a.due).dispose a) := conditionLaw_dispose (s := s.reach a.due) input current reached
    exact disposed.of_table table (.of_core (core_of_directory directory))
  all_goals
    have frame := exec_event_frame rfl (fun _ _ => ⟨by rintro ⟨⟩, by rintro ⟨⟩⟩) ran
    exact law.of_table (frame.same .table (of_decide_eq_true rfl))
      (.of_core (event_core (of_decide_eq_true rfl) (by rintro ⟨⟩) ran))

theorem conditionLaw_reset : HoldsAtReset ConditionLaw := by
  intro u straps inhibit
  rw [conditionLaw_iff]
  rintro _ ⟨⟩

theorem step_keeps_conditionLaw {s t : State} (input : InputLaw s) (law : ConditionLaw s) (ran : step s = .next t) :
    ConditionLaw t := by
  have reads : Reads [.directory, .table] ConditionLaw := fun u v same hu =>
    hu.of_table (same .table (by simp)) (.of_core (core_of_directory (same .directory (by simp))))
  exact step_keeps_relying reads rfl reads_inputLaw rfl conditionLaw_reset (fun _ _ _ _ kind _ hu => act_conditionLaw kind hu)
    (fun _ _ _ touches ran hQ hu => event_conditionLaw touches ran hQ hu) input law ran

end Sys2Proof.Machine

namespace Sys2Proof

open Machine in
/-- Settles O18: each condition obeys the law through misses, matches, creations and retirements, while the clear count that
the input copied is in its range. -/
theorem everyStepKeepsTheTableLaw : Obligations.EveryStepKeepsTheTableLaw :=
  fun _ _ ran => ⟨fun law => step_keeps_tableLaw law ran, fun directory law => step_keeps_inputLaw directory law ran,
    fun input law => step_keeps_conditionLaw input law ran⟩

/-! ### The reset values -/

open Machine in
/-- Settles O13: the state after power-on is one of the states after a reset, for which each law is shown. -/
theorem resetSatisfiesEveryLaw : Obligations.ResetSatisfiesEveryLaw := by
  have at_reset {P : State → Prop} (h : HoldsAtReset P) : P State.reset :=
    h State.reset Config.resetStraps Config.resetInhibit
  have settings : SettingsLaw State.reset := (settingsLaw_iff _).mpr
    ⟨at_reset fun _ _ _ => inRange_default, at_reset thresholdsInRange_reset, at_reset severityInRange_reset,
      at_reset timesInRange_reset, at_reset unitsInRange_reset⟩
  have queues : QueueLaw State.reset := queueLaw_of_empty rfl
  exact ⟨at_reset linkLaw_reset, settings, at_reset inhibitLaw_reset, queues, at_reset directoryLaw_reset,
    at_reset portLaw_reset, at_reset tableLaw_reset, at_reset conditionLaw_reset, at_reset inputLaw_reset,
    at_reset poolLaw_reset, at_reset bankLaw_reset, at_reset jobLaw_reset⟩

end Sys2Proof
end

section
/-! PROOFS. The status summary (R196, R203), every field at its offset: O10. -/

namespace Sys2Proof.Machine

/-- The first 36 bytes of the summary: what stands before the units. -/
def summaryHead (s : State) : List Byte :=
  [byte s.spans.length] ++ be16 s.poolFree ++
    [byte s.freeBufferCount, boolByte s.engine.current.isSome, byte s.engine.queue.length] ++
    (s.sched.classQueues.map (fun q => byte q.length)).toList ++
    [byte s.sched.demandQueue.length, flagsByte s.sched.verifyPlaces.a s.sched.verifyPlaces.b false false] ++
    (s.sched.classes.map (fun c => byte c.credit)).toList ++ [byte s.table.conditions.length] ++
    timeBaseBytes s.timeBase ++ thresholdBytes s.thresholds

/-- The last 6 bytes of the summary: what stands behind the units. -/
def summaryTail (s : State) : List Byte :=
  [flagsByte s.inputs.inhibit s.inputs.straps.bankB s.inputs.straps.dualA s.inputs.straps.dualB,
    flagsByte s.link.enables.span s.link.enables.condition s.link.enables.unit false, boolByte s.attn,
    byte s.markedSpans.length, byte s.markedConditions.length, byte s.markedUnits.length]

theorem statusSummaryBytes_eq (s : State) :
    statusSummaryBytes s = summaryHead s ++ channelUnitBytes s .A ++ channelUnitBytes s .B ++ bankUnitBytes s .A ++
      bankUnitBytes s .B ++ summaryTail s := rfl

theorem summaryHead_length (s : State) : (summaryHead s).length = 36 := by simp [summaryHead]

/-- A field of the head stands in the summary at its offset in the head. -/
theorem hasAt_of_summaryHead {s : State} {k : Nat} {field : List Byte} (fits : k + field.length ≤ 36)
    (h : HasAt (summaryHead s) k field) : HasAt (statusSummaryBytes s) k field := by
  have within := HasAt.within [] (channelUnitBytes s .A ++ channelUnitBytes s .B ++ bankUnitBytes s .A ++ bankUnitBytes s .B ++
    summaryTail s) rfl (by rw [summaryHead_length]; exact fits) h
  rw [statusSummaryBytes_eq]
  simpa [List.append_assoc] using within

/-- A field of the tail stands 80 bytes further on in the summary. -/
theorem hasAt_of_summaryTail {s : State} {k : Nat} {field : List Byte} (fits : k + field.length ≤ 6)
    (h : HasAt (summaryTail s) k field) : HasAt (statusSummaryBytes s) (80 + k) field := by
  have within := HasAt.within (k := 80) (summaryHead s ++ channelUnitBytes s .A ++ channelUnitBytes s .B ++ bankUnitBytes s .A ++
    bankUnitBytes s .B) [] (by simp [summaryHead_length]) fits h
  rw [statusSummaryBytes_eq]
  simpa using within

/-! ### The counts of marks -/

theorem length_markedConditions (s : State) :
    s.markedConditions.length = (s.table.conditions.filter Condition.mark).length := by
  rw [State.markedConditions, List.length_map, length_sortBy]

theorem length_markedUnits (s : State) :
    s.markedUnits.length = s.channels.a.mark.toNat + s.channels.b.mark.toNat + s.banks.a.mark.toNat + s.banks.b.mark.toNat := by
  have one (b : Bool) (i : Item) : (if b then [i] else []).length = b.toNat := by cases b <;> rfl
  simp only [State.markedUnits, List.length_append, one]

/-! ### The summary -/

theorem summaryOf_statusSummaryBytes (s : State) : SummaryOf s (statusSummaryBytes s) := by
  have head {k : Nat} {field : List Byte} (fits : k + field.length ≤ 36) (h : HasAt (summaryHead s) k field) :=
    hasAt_of_summaryHead fits h
  constructor
  case length => exact statusSummaryBytes_length s
  case spans => exact head (by simp) rfl
  case pool => exact head (by simp) rfl
  case buffers => exact head (by simp) rfl
  case engine => exact head (by simp) rfl
  case classes => exact head (by simp) rfl
  case demand => exact head (by simp) rfl
  case verify => exact head (by simp) rfl
  case credits => exact head (by simp) rfl
  case conditions => exact head (by simp) rfl
  case times => exact head (by simp) rfl
  case window => exact head (by simp) rfl
  case thresholds => exact head (by simp) rfl
  case channelA =>
    have unit := channelUnitAt_of_append s .A (summaryHead s)
      (channelUnitBytes s .B ++ bankUnitBytes s .A ++ bankUnitBytes s .B ++ summaryTail s) (summaryHead_length s)
    rw [statusSummaryBytes_eq]
    simpa [List.append_assoc] using unit
  case channelB =>
    have unit := channelUnitAt_of_append s .B (k := 45) (summaryHead s ++ channelUnitBytes s .A)
      (bankUnitBytes s .A ++ bankUnitBytes s .B ++ summaryTail s) (by simp [summaryHead_length])
    rw [statusSummaryBytes_eq]
    simpa [List.append_assoc] using unit
  case bankA =>
    have unit := bankUnitAt_of_append s .A (k := 54) (summaryHead s ++ channelUnitBytes s .A ++ channelUnitBytes s .B)
      (bankUnitBytes s .B ++ summaryTail s) (by simp [summaryHead_length])
    rw [statusSummaryBytes_eq]
    simpa [List.append_assoc] using unit
  case bankB =>
    have unit := bankUnitAt_of_append s .B (k := 67)
      (summaryHead s ++ channelUnitBytes s .A ++ channelUnitBytes s .B ++ bankUnitBytes s .A) (summaryTail s)
      (by simp [summaryHead_length])
    rw [statusSummaryBytes_eq]
    exact unit
  case inputs => exact hasAt_of_summaryTail (k := 0) (by simp) rfl
  case enables => exact hasAt_of_summaryTail (k := 1) (by simp) rfl
  case attn => exact hasAt_of_summaryTail (k := 2) (by simp) rfl
  case spanMarks =>
    refine hasAt_of_summaryTail (k := 3) (by simp) ?_
    change [byte s.markedSpans.length] = [byte _]
    rw [State.markedSpans, List.length_map]
    rfl
  case condMarks => exact hasAt_of_summaryTail (k := 4) (by simp) (by rw [← length_markedConditions]; rfl)
  case unitMarks => exact hasAt_of_summaryTail (k := 5) (by simp) (by rw [← length_markedUnits]; rfl)

theorem statusSummaryBytes_discardPending (s : State) : statusSummaryBytes s.discardPending = statusSummaryBytes s := by
  have channel (l : Letter) : channelUnitBytes s.discardPending l = channelUnitBytes s l := by cases l <;> rfl
  have bank (l : Letter) : bankUnitBytes s.discardPending l = bankUnitBytes s l := by cases l <;> rfl
  rw [statusSummaryBytes_eq, statusSummaryBytes_eq, channel, channel, bank, bank]
  rfl

end Sys2Proof.Machine

namespace Sys2Proof

open Machine in
/-- Settles O10: the summary is a head, the four units and a tail, and each field is found in its piece. -/
theorem statusGetAnswersTheSummary : Obligations.StatusGetAnswersTheSummary := by
  intro s ready
  refine ⟨readsOut_of_act (n := 3) (act := actStatusGet) ready rfl ?_, summaryOf_statusSummaryBytes s⟩
  rw [actStatusGet, statusSummaryBytes_discardPending]

end Sys2Proof
end

section
/-! PROOFS. RESTART (R197): what it leaves of every part, and O11. -/

namespace Sys2Proof.Machine

theorem SpanRecord.restarted_eq (missed : List Nat) (r : SpanRecord) :
    r.restarted missed =
      { r with
        state := if r.state = .learning then r.resume else r.state
        missed := r.missed || decide (r.id ∈ missed)
        mark := r.mark || decide (r.state = .learning) || decide (r.id ∈ missed) } := by
  by_cases scheduled : r.id ∈ missed <;> by_cases learning : r.state = .learning <;>
    simp [SpanRecord.restarted, SpanRecord.endLearn, SpanRecord.miss, scheduled, learning]

theorem mem_retiringSpans {s : State} {id : Nat} : id ∈ s.retiringSpans ↔ ∃ r ∈ s.spans, r.id = id ∧ r.state = .retiring := by
  simp only [State.retiringSpans, List.mem_map, List.mem_filter, beq_iff_eq]
  exact ⟨fun ⟨r, ⟨hr, retiring⟩, names⟩ => ⟨r, hr, names, retiring⟩, fun ⟨r, hr, names, retiring⟩ => ⟨r, ⟨hr, retiring⟩, names⟩⟩

theorem mem_spans_iff {s : State} {r : SpanRecord} : r ∈ s.spans ↔ Entry.span r ∈ s.directory := by
  simp only [State.spans, List.mem_filterMap]
  constructor
  · rintro ⟨e, he, names⟩
    cases e <;> cases names
    exact he
  · exact fun h => ⟨_, h, rfl⟩

theorem vacated_mem_restarted {s : State} {i : Nat} :
    Entry.vacated i ∈ s.restarted.directory ↔
      (Entry.vacated i ∈ s.directory ∨ ∃ r ∈ s.spans, r.id = i ∧ r.state = .retiring) := by
  change Entry.vacated i ∈ s.directory.map _ ↔ _
  rw [List.mem_map]
  constructor
  · rintro ⟨e, he, same⟩
    cases e with
    | vacated k => cases same; exact .inl he
    | span r =>
      by_cases retiring : r.state = .retiring
      · rw [Entry.restarted, if_pos retiring] at same
        cases same
        exact .inr ⟨r, mem_spans_iff.mpr he, rfl, retiring⟩
      · rw [Entry.restarted, if_neg retiring] at same
        cases same
  · rintro (he | ⟨r, hr, rfl, retiring⟩)
    · exact ⟨_, he, rfl⟩
    · exact ⟨_, mem_spans_iff.mp hr, by rw [Entry.restarted, if_pos retiring]⟩

theorem conditions_restarted (s : State) :
    s.restarted.table.conditions = s.table.conditions.map (fun c =>
      if (∃ r ∈ s.spans, r.id = c.span ∧ r.state = .retiring) ∧ c.state.isOpen = true then
        { c with state := .retired, mark := true } else c) := by
  refine List.map_congr_left fun c _ => ?_
  unfold Condition.restarted
  simp only [List.contains_iff_mem, mem_retiringSpans]

end Sys2Proof.Machine

namespace Sys2Proof

open Machine in
/-- Settles O11, part by part: the jobs gone with what they held, the spans, reports and conditions as R27, R20 and R159 leave
them. -/
theorem restartEndsEveryJob : Obligations.RestartEndsEveryJob := by
  intro s ready
  obtain ⟨runs, answered, keeps⟩ := exec_of_act (i := .restart) (n := 3) (act := actRestart) ready rfl rfl
    (restarted_frame s.discardPending) (by decide)
  refine ⟨_, runs, answered, keeps, fun c => ⟨?_, ?_⟩, rfl, rfl, rfl, fun i => ?_, fun l => ?_, fun ch => ?_, ?_, fun i => ?_,
    ?_, rfl, rfl⟩
  · fin_cases c <;> rfl
  · exact Quad.get_map ..
  · fin_cases i <;> rfl
  · exact Pair.get_map ..
  · exact Pair.get_map ..
  · have spans := spans_restarted s
    rw [List.map_congr_left (fun r _ => SpanRecord.restarted_eq s.scheduledSpans r)] at spans
    exact spans
  · exact vacated_mem_restarted
  · exact conditions_restarted s

end Sys2Proof
end

section
/-! PROOFS. CHANGES_READ (R193, R194): the marked items that it leaves are those behind the first sixteen, and O9. -/

namespace Sys2Proof.Machine

/-! ### Lists of distinct entries -/

theorem filter_notMem_take {α : Type} [DecidableEq α] {l : List α} (distinct : l.Nodup) (n : Nat) :
    l.filter (fun x => decide (x ∉ l.take n)) = l.drop n := by
  have parts : (l.take n ++ l.drop n).Nodup := by rwa [List.take_append_drop]
  obtain ⟨-, -, apart⟩ := List.nodup_append.mp parts
  calc l.filter (fun x => decide (x ∉ l.take n))
      = (l.take n ++ l.drop n).filter (fun x => decide (x ∉ l.take n)) := by rw [List.take_append_drop]
    _ = [] ++ l.drop n := by
      rw [List.filter_append]
      congr 1
      · simp [List.filter_eq_nil_iff]
      · exact List.filter_eq_self.mpr (fun x hx => decide_eq_true fun before => apart x before x hx rfl)
    _ = l.drop n := List.nil_append _

/-- A sorted list of distinct entries stays sorted when entries leave it, and so is the sorted list of what stays. -/
theorem sortBy_filter {α : Type} {le : α → α → Bool} (total : ∀ a b, le a b = true ∨ le b a = true)
    (trans : ∀ a b c, le a b = true → le b c = true → le a c = true) {l : List α}
    (antisymm : ∀ a ∈ l, ∀ b ∈ l, le a b = true → le b a = true → a = b) (p : α → Bool) :
    sortBy le (l.filter p) = (sortBy le l).filter p := by
  have perm : (sortBy le (l.filter p)).Perm ((sortBy le l).filter p) :=
    (perm_sortBy le (l.filter p)).trans ((perm_sortBy le l).filter p).symm
  refine List.Perm.eq_of_pairwise (le := fun a b => le a b = true) (fun a b ha hb => ?_) (pairwise_sortBy total trans _)
    ((pairwise_sortBy total trans l).filter p) perm
  have inside {x : α} (hx : x ∈ (sortBy le l).filter p) : x ∈ l := (mem_sortBy le l x).mp (List.mem_filter.mp hx).1
  exact antisymm a (inside (perm.mem_iff.mp ha)) b (inside hb)

/-! ### The items that stay marked -/

variable (s : State) (items : List Item)

theorem markedSpans_returnItems :
    (s.returnItems items).markedSpans = s.markedSpans.filter (fun i => decide (i ∉ items)) := by
  simp only [State.markedSpans, State.returnItems]
  rw [List.filter_filterMap, List.map_filterMap, List.filter_map, List.filter_filter, ← List.filterMap_eq_map,
    List.filterMap_filter]
  refine List.filterMap_congr fun e _ => ?_
  by_cases among : Item.span e ∈ items
  · cases e <;> simp [Entry.among, among, Entry.returned, Entry.marked]
  · cases marked : e.marked <;> simp [Entry.among, among, marked]

theorem markedConditions_returnItems (law : TableLaw s) :
    (s.returnItems items).markedConditions = s.markedConditions.filter (fun i => decide (i ∉ items)) := by
  have stays : (s.returnItems items).table.conditions.filter Condition.mark =
      (s.table.conditions.filter Condition.mark).filter (fun c => decide (Item.condition c ∉ items)) := by
    simp only [State.returnItems]
    rw [List.filter_filterMap, List.filter_filter, ← List.filterMap_eq_filter]
    refine List.filterMap_congr fun c _ => ?_
    by_cases among : Item.condition c ∈ items
    · by_cases retired : c.state = .retired <;> simp [Condition.among, among, Condition.returned, retired, Option.guard, Option.filter_some]
    · simp [Condition.among, among, Option.guard, Option.filter_some]
  have antisymm (a) (ha : a ∈ s.table.conditions.filter Condition.mark) (b) (hb : b ∈ s.table.conditions.filter Condition.mark)
      (le : decide (a.tag ≤ b.tag) = true) (ge : decide (b.tag ≤ a.tag) = true) : a = b :=
    List.inj_on_of_nodup_map law.unique (List.mem_filter.mp ha).1 (List.mem_filter.mp hb).1
      (Nat.le_antisymm (of_decide_eq_true le) (of_decide_eq_true ge))
  rw [State.markedConditions, stays, sortBy_filter (fun a b => by simp; omega) (fun a b c => by simp; omega) antisymm,
    State.markedConditions, List.filter_map]
  rfl

theorem markedUnits_returnItems :
    (s.returnItems items).markedUnits = s.markedUnits.filter (fun i => decide (i ∉ items)) := by
  have channel (l : Letter) (c : Channel) : (if (c.afterRead items l).mark then [Item.channel l] else []) =
      (if c.mark then [Item.channel l] else []).filter (fun i => decide (i ∉ items)) := by
    by_cases among : Item.channel l ∈ items <;> cases marked : c.mark <;> simp [Channel.afterRead, among, marked]
  have bank (l : Letter) (b : Bank) : (if (b.afterRead items l).mark then [Item.bank l] else []) =
      (if b.mark then [Item.bank l] else []).filter (fun i => decide (i ∉ items)) := by
    by_cases among : Item.bank l ∈ items <;> cases marked : b.mark <;> simp [Bank.afterRead, among, marked]
  simp only [State.markedUnits, List.filter_append, ← channel, ← bank]
  rfl

theorem enabledItems_returnItems (law : TableLaw s) :
    (s.returnItems items).enabledItems = s.enabledItems.filter (fun i => decide (i ∉ items)) := by
  have enabled (b : Bool) (l : List Item) :
      (if b then l else []).filter (fun i => decide (i ∉ items)) = if b then l.filter (fun i => decide (i ∉ items)) else [] := by
    cases b <;> rfl
  simp only [State.enabledItems, List.filter_append, enabled, ← markedSpans_returnItems,
    ← markedConditions_returnItems s items law, ← markedUnits_returnItems]
  rfl

/-! ### The marked items are distinct -/

variable {s}

theorem nodup_markedSpans (law : DirectoryLaw s) : s.markedSpans.Nodup := by
  have distinct : s.directory.Nodup := .of_map Entry.id (law.order.imp (fun below => Nat.ne_of_lt below))
  exact (distinct.filter _).map (fun _ _ => Item.span.inj)

theorem nodup_markedConditions (law : TableLaw s) : s.markedConditions.Nodup := by
  have distinct : s.table.conditions.Nodup := .of_map Condition.tag law.unique
  exact ((perm_sortBy ..).nodup_iff.mpr (distinct.filter _)).map (fun _ _ => Item.condition.inj)

theorem markedUnits_sublist : s.markedUnits.Sublist [.channel .A, .channel .B, .bank .A, .bank .B] := by
  have one (b : Bool) (i : Item) : (if b then [i] else []).Sublist [i] := by
    cases b
    · exact List.nil_sublist _
    · exact .refl _
  exact (((one _ _).append (one _ _)).append (one _ _)).append (one _ _)

theorem nodup_enabledItems (directory : DirectoryLaw s) (table : TableLaw s) : s.enabledItems.Nodup := by
  have enabled (b : Bool) (l : List Item) : (if b then l else []).Sublist l := by
    cases b
    · exact List.nil_sublist _
    · exact .refl _
  have within : s.enabledItems.Sublist (s.markedSpans ++ s.markedConditions ++ s.markedUnits) :=
    ((enabled _ _).append (enabled _ _)).append (enabled _ _)
  have units : s.markedUnits.Nodup := markedUnits_sublist.nodup (by decide)
  refine within.nodup (List.nodup_append.mpr ⟨List.nodup_append.mpr ⟨nodup_markedSpans directory, nodup_markedConditions table,
    fun i hi j hj => ?_⟩, units, fun i hi j hj => ?_⟩)
  · obtain ⟨e, -, rfl⟩ := List.mem_map.mp hi
    obtain ⟨c, -, rfl⟩ := List.mem_map.mp hj
    exact nofun
  · have unit := markedUnits_sublist.subset hj
    rcases List.mem_append.mp hi with hi | hi <;> obtain ⟨e, -, rfl⟩ := List.mem_map.mp hi <;>
      rintro rfl <;> simp at unit

/-! ### What stands after the items are returned -/

theorem vacated_mem_returnItems {i : Nat} :
    Entry.vacated i ∈ (s.returnItems items).directory ↔
      (Entry.vacated i ∈ s.directory ∧ Item.span (.vacated i) ∉ items) := by
  change Entry.vacated i ∈ s.directory.filterMap _ ↔ _
  rw [List.mem_filterMap]
  constructor
  · rintro ⟨e, he, same⟩
    by_cases among : Item.span e ∈ items
    · cases e <;> simp [Entry.among, among, Entry.returned] at same
    · simp only [Entry.among, List.contains_iff_mem, among, if_false] at same
      cases same
      exact ⟨he, among⟩
  · rintro ⟨he, notAmong⟩
    exact ⟨_, he, by simp [Entry.among, notAmong]⟩

variable (s)

theorem conditions_returnItems :
    (s.returnItems items).table.conditions = (s.table.conditions.filter
        (fun c => !(decide (Item.condition c ∈ items) && c.state == .retired))).map
      (fun c => if Item.condition c ∈ items then { c with mark := false } else c) := by
  change s.table.conditions.filterMap _ = _
  rw [← List.filterMap_eq_map, List.filterMap_filter]
  refine List.filterMap_congr fun c _ => ?_
  by_cases among : Item.condition c ∈ items <;> by_cases retired : c.state = .retired <;>
    simp [Condition.among, among, Condition.returned, retired]

theorem Channel.afterRead_eq (l : Letter) (c : Channel) :
    c.afterRead items l = { c with mark := c.mark && !decide (Item.channel l ∈ items) } := by
  by_cases among : Item.channel l ∈ items <;> simp [Channel.afterRead, among]

theorem Bank.afterRead_eq (l : Letter) (b : Bank) :
    b.afterRead items l = { b with mark := b.mark && !decide (Item.bank l ∈ items) } := by
  by_cases among : Item.bank l ∈ items <;> simp [Bank.afterRead, among]

theorem itemBytes_discardPending (i : Item) : itemBytes s.discardPending i = itemBytes s i := by
  cases i with
  | span e => rfl
  | condition c => rfl
  | channel l => cases l <;> rfl
  | bank l => cases l <;> rfl

end Sys2Proof.Machine

namespace Sys2Proof

open Machine in
/-- Settles O9: what leaves the marked items is what was returned, and the items are distinct. -/
theorem changesReadReturnsTheFirstSixteen : Obligations.ChangesReadReturnsTheFirstSixteen := by
  intro s ready directory table
  obtain ⟨runs, answered, keeps⟩ := exec_of_act (i := .changesRead) (n := 3) (act := actChangesRead) ready rfl rfl
    (returnItems_frame s.discardPending (s.enabledItems.take 16)) (by decide)
  refine ⟨_, runs, ?_, keeps, ?_, ?_, fun i => ?_, ?_, rfl, rfl, fun l => ⟨?_, ?_⟩⟩
  · have body : [byte s.discardPending.selected.length] ++
          be16 (s.discardPending.enabledItems.length - s.discardPending.selected.length) ++
          s.discardPending.selected.flatMap (itemBytes s.discardPending) =
        [byte (s.enabledItems.take 16).length] ++ be16 (s.enabledItems.drop 16).length ++
          (s.enabledItems.take 16).flatMap (itemBytes s) := by
      have left : s.enabledItems.length - (s.enabledItems.take 16).length = (s.enabledItems.drop 16).length := by
        rw [List.length_take, List.length_drop]
        omega
      rw [show itemBytes s.discardPending = itemBytes s from funext (itemBytes_discardPending s), ← left]
      rfl
    exact body ▸ answered
  · have stays := enabledItems_returnItems s (s.enabledItems.take 16) table
    rw [filter_notMem_take (nodup_enabledItems directory table)] at stays
    exact stays
  · refine (spans_returnItems s (s.enabledItems.take 16)).trans (List.map_congr_left fun r _ => ?_)
    simp only [Entry.among, List.contains_iff_mem]
  · exact vacated_mem_returnItems (s := s) (s.enabledItems.take 16)
  · exact conditions_returnItems s (s.enabledItems.take 16)
  · cases l <;> exact Channel.afterRead_eq (s.enabledItems.take 16) _ _
  · cases l <;> exact Bank.afterRead_eq (s.enabledItems.take 16) _ _

end Sys2Proof
end

section
/-! PROOFS. SPAN_PUT (R6 to R10): its refusals in their order, the span that it creates and the edit that it makes; O22, O23
and O24. -/

namespace Sys2Proof.Machine

/-! ### The act, case by case -/

section Act

variable {b : SpanFields} (s : State)

theorem actSpanPut_of_zero (zero : b.identifier.toNat = 0) : actSpanPut b s = (s, Reply.refusal .badField) := if_pos zero

theorem actSpanPut_of_outside (outside : ¬ CheckedInRange b) : actSpanPut b s = (s, Reply.refusal .badField) := by
  rw [actSpanPut, checkedFields_eq_none outside]
  split <;> rfl

variable {s} {c : CheckedFields} (nonzero : b.identifier.toNat ≠ 0) (checked : checkedFields b = some c)
include nonzero checked

theorem actSpanPut_of_found {r : SpanRecord} (found : s.findSpan b.identifier.toNat = some r) :
    actSpanPut b s = editSpan s r c b := by
  rw [actSpanPut, if_neg nonzero, checked, found]

theorem actSpanPut_of_none (unheld : s.findSpan b.identifier.toNat = none) : actSpanPut b s = createSpan s c b := by
  rw [actSpanPut, if_neg nonzero, checked, unheld]

end Act

/-! ### The port (R6 steps 5 and 6) -/

theorem refusesPort_of_absent {s : State} {l : Letter} (position : Nat) (absent : s.present l = false) :
    s.refusesPort l position = some .bankAbsent := if_pos absent

theorem refusesPort_of_bound {s : State} {l : Letter} {position : Nat} (present : s.present l = true)
    (bound : ∃ q ∈ s.spans, q.bank = l ∧ q.position = position) : s.refusesPort l position = some .exists_ := by
  have found : (s.boundTo l position).isSome = true := by
    by_contra unbound
    obtain ⟨q, hq, here⟩ := bound
    exact not_bound_of_none (Bool.not_eq_true _ ▸ unbound) q hq here
  simp [State.refusesPort, present, found]

theorem refusesPort_of_free {s : State} {l : Letter} {position : Nat} (present : s.present l = true)
    (free : ∀ q ∈ s.spans, ¬(q.bank = l ∧ q.position = position)) : s.refusesPort l position = none := by
  simp [State.refusesPort, present, boundTo_eq_none free]

theorem moves_eq_true_iff (r : SpanRecord) (c : CheckedFields) :
    r.moves c = true ↔ ¬(r.bank = c.bank ∧ r.position = c.position) := by
  simp [SpanRecord.moves, imp_iff_not_or]

theorem moves_eq_false_iff (r : SpanRecord) (c : CheckedFields) :
    r.moves c = false ↔ r.bank = c.bank ∧ r.position = c.position := by
  simp [SpanRecord.moves]

theorem editSpan_of_refused {s : State} {r : SpanRecord} {c : CheckedFields} {b : SpanFields} {status : Status}
    (refused : s.refusesEdit r c = some status) : editSpan s r c b = (s, Reply.refusal status) := by
  rw [editSpan, refused]

theorem createSpan_of_refused {s : State} {c : CheckedFields} {b : SpanFields} {status : Status}
    (refused : s.refusesCreation c = some status) : createSpan s c b = (s, Reply.refusal status) := by
  rw [createSpan, refused]

section Edit

variable {s : State} {r : SpanRecord} {c : CheckedFields}

theorem refusesEdit_of_retiring (retiring : r.state = .retiring) : s.refusesEdit r c = some .wrongState := if_pos retiring

variable (notRetiring : r.state ≠ .retiring)
include notRetiring

theorem refusesEdit_of_stays (stays : r.bank = c.bank ∧ r.position = c.position) : s.refusesEdit r c = none := by
  simp [State.refusesEdit, notRetiring, (moves_eq_false_iff r c).mpr stays]

variable (moves : ¬(r.bank = c.bank ∧ r.position = c.position))
include moves

theorem refusesEdit_of_busy (busy : s.jobPastQueued r.id = true) : s.refusesEdit r c = some .spanBusy := by
  simp [State.refusesEdit, notRetiring, (moves_eq_true_iff r c).mpr moves, busy]

theorem refusesEdit_of_moves (free : s.jobPastQueued r.id = false) : s.refusesEdit r c = s.refusesPort c.bank c.position := by
  simp [State.refusesEdit, notRetiring, (moves_eq_true_iff r c).mpr moves, free]

end Edit

theorem refusesCreation_of_full {s : State} {c : CheckedFields} (full : 120 ≤ s.spans.length) :
    s.refusesCreation c = some .tableFull := if_pos full

theorem refusesCreation_of_room {s : State} {c : CheckedFields} (room : s.spans.length < 120) :
    s.refusesCreation c = s.refusesPort c.bank c.position := if_neg (Nat.not_le.mpr room)

/-! ### The refusals -/

section Refusals

variable {s : State} (ready : s.ready = true)
include ready

theorem spanPut_zero {b : SpanFields} (zero : b.identifier.toNat = 0) : TurnsAway (.spanPut b) s .badField :=
  turnsAway_of_act ready rfl (actSpanPut_of_zero _ zero)

theorem spanPut_outside {b : SpanFields} (outside : ¬ CheckedInRange b) : TurnsAway (.spanPut b) s .badField :=
  turnsAway_of_act ready rfl (actSpanPut_of_outside _ outside)

variable {b : SpanFields} {c : CheckedFields} (nonzero : b.identifier.toNat ≠ 0) (checked : checkedFields b = some c)
include nonzero checked

theorem spanPut_editRefused (law : DirectoryLaw s) {r : SpanRecord} (hr : r ∈ s.spans) (holds : r.id = b.identifier.toNat)
    {status : Status} (refused : s.discardPending.refusesEdit r c = some status) : TurnsAway (.spanPut b) s status :=
  turnsAway_of_act ready rfl
    ((actSpanPut_of_found (s := s.discardPending) nonzero checked (findSpan_of_held law hr holds)).trans
      (editSpan_of_refused refused))

theorem spanPut_creationRefused (unheld : ∀ r ∈ s.spans, r.id ≠ b.identifier.toNat) {status : Status}
    (refused : s.discardPending.refusesCreation c = some status) : TurnsAway (.spanPut b) s status :=
  turnsAway_of_act ready rfl
    ((actSpanPut_of_none (s := s.discardPending) nonzero checked (findSpan_eq_none unheld)).trans
      (createSpan_of_refused refused))

end Refusals

/-- The letter that the bank byte names is the checked bank, and the position byte the checked position. -/
theorem checkedFields_of_letter {b : SpanFields} {l : Letter} (inRange : CheckedInRange b) (letter : bankOfByte b.bank = some l) :
    ∃ c, checkedFields b = some c ∧ c.bank = l ∧ c.position = b.position.toNat := by
  obtain ⟨c, checked⟩ := exists_checkedFields inRange
  obtain ⟨-, carries⟩ := checkedFields_eq_some checked
  exact ⟨c, checked, Option.some.inj (carries.bank.symm.trans letter), carries.position⟩

/-! ### What a taken SPAN_PUT answers with -/

theorem clamped_carried (b : SpanFields) :
    SpanClamp.clamped (SpanClamp.carried b) =
      { groupIndex := max 14000 (min 15000 b.groupIndex.toNat), launchOffset := min 4095 b.launchOffset.toNat
        attenuation := max 100 (min 600 b.attenuation.toNat), lossThreshold := max 50 (min 3000 b.lossThreshold.toNat)
        driftThreshold := max 50 (min 3000 b.driftThreshold.toNat), bendMargin := max 100 (min 3000 b.bendMargin.toNat)
        matchTolerance := max 100 (min 5000 b.matchTolerance.toNat)
        confirmCount := max 1 (min 7 b.confirmCount.toNat), clearCount := max 1 (min 7 b.clearCount.toNat) } := by
  simp [SpanClamp.clamped, SpanClamp.carried, clamp_eq_max_min]

theorem putReply_eq {b : SpanFields} {r : SpanRecord} (clamped : r.clamped = SpanClamp.clamped (SpanClamp.carried b)) :
    putReply b r = { status := putStatus b r, body := spanRecordBytes r } := by
  rw [putReply, takenStatus_bne, putStatus, clamped]

/-! ### The span created (R8) -/

theorem holdsTheFields_created {b : SpanFields} {c : CheckedFields} (checked : checkedFields b = some c) :
    HoldsTheFields b (createdSpan b.identifier.toNat c (SpanClamp.clamped (SpanClamp.carried b))) := by
  obtain ⟨-, bank, position, profile, cls, interval, phase⟩ := checkedFields_eq_some checked
  exact ⟨rfl, bank, position, profile, cls, interval, phase, clamped_carried b⟩

/-- The vacated reports are those of the directory that was made room in. -/
theorem vacated_mem_enter {r : SpanRecord} {l : List Entry} {i : Nat} :
    Entry.vacated i ∈ enter r l ↔ Entry.vacated i ∈ roomFor r.id l := by
  simp [(perm_enter r l).mem_iff]

/-- A directory without the vacated report of an identifier. -/
def othersThan (id : Nat) (l : List Entry) : List Entry := l.filter (fun e => !(e.isVacated && e.id == id))

theorem vacated_mem_othersThan {id i : Nat} {l : List Entry} :
    Entry.vacated i ∈ othersThan id l ↔ (Entry.vacated i ∈ l ∧ i ≠ id) := by
  simp [othersThan, Entry.isVacated, Entry.id]

theorem vacated_mem_roomFor {id i : Nat} {l : List Entry} (room : (othersThan id l).length < 120) :
    Entry.vacated i ∈ roomFor id l ↔ (Entry.vacated i ∈ l ∧ i ≠ id) := by
  have others : roomFor id l = othersThan id l := if_pos room
  rw [others, vacated_mem_othersThan]

theorem length_othersThan_lt {id : Nat} {l : List Entry} (vacated : Entry.vacated id ∈ l) :
    (othersThan id l).length < l.length :=
  List.length_filter_lt_length_iff_exists.mpr ⟨_, vacated, by simp [Entry.isVacated, Entry.id]⟩

/-- A full directory that holds no vacated report of the new identifier loses its lowest one. -/
theorem lowest_leaves {s : State} (law : DirectoryLaw s) {id : Nat} (full : s.directory.length = 120)
    (spans : s.spans.length < 120) (absent : Entry.vacated id ∉ s.directory) :
    ∃ low, Entry.vacated low ∈ s.directory ∧ (∀ i, Entry.vacated i ∈ s.directory → low ≤ i) ∧
      ∀ i, Entry.vacated i ∈ roomFor id s.directory ↔ (Entry.vacated i ∈ s.directory ∧ i ≠ low) := by
  have others : othersThan id s.directory = s.directory := by
    refine List.filter_eq_self.mpr fun e he => ?_
    cases e with
    | span r => rfl
    | vacated i =>
      have other : i ≠ id := fun same => absent (same ▸ he)
      simp [Entry.isVacated, Entry.id, other]
  have erased : roomFor id s.directory = s.directory.eraseP Entry.isVacated := by
    have notRoom : ¬ (othersThan id s.directory).length < 120 := by rw [others]; omega
    have : roomFor id s.directory = (othersThan id s.directory).eraseP Entry.isVacated := if_neg notRoom
    rw [this, others]
  have exists_vacated : ∃ e ∈ s.directory, e.isVacated = true := by
    by_contra none
    have all (e) (he : e ∈ s.directory) : e.span?.isSome = true := by
      cases e with
      | span r => rfl
      | vacated i => exact absurd ⟨_, he, rfl⟩ none
    have : s.spans.length = s.directory.length := List.filterMap_length_eq_length.mpr all
    omega
  obtain ⟨e, he, vacated⟩ := exists_vacated
  obtain ⟨low, before, after, spansBefore, isLow, parts, left⟩ := List.exists_of_eraseP he vacated
  cases low with
  | span r => cases isLow
  | vacated low =>
    have order := law.order
    rw [parts, List.map_append, List.map_cons, List.pairwise_append, List.pairwise_cons] at order
    obtain ⟨-, ⟨above, -⟩, across⟩ := order
    have inBefore {i : Nat} : Entry.vacated i ∉ before := fun mem => spansBefore _ mem rfl
    have inAfter {i : Nat} (mem : Entry.vacated i ∈ after) : low < i := above i (List.mem_map_of_mem (f := Entry.id) mem)
    refine ⟨low, by rw [parts]; simp, fun i mem => ?_, fun i => ?_⟩
    · rw [parts, List.mem_append, List.mem_cons] at mem
      rcases mem with mem | same | mem
      · exact absurd mem inBefore
      · cases same; exact Nat.le_refl _
      · exact Nat.le_of_lt (inAfter mem)
    · rw [erased, left, parts]
      simp only [List.mem_append, List.mem_cons, Entry.vacated.injEq, inBefore, false_or]
      constructor
      · exact fun mem => ⟨.inr mem, Nat.ne_of_gt (inAfter mem)⟩
      · rintro ⟨same | mem, other⟩
        · exact absurd same other
        · exact mem

/-! ### The span edited (R9, R10) -/

theorem holdsTheFields_edited {b : SpanFields} {c : CheckedFields} (checked : checkedFields b = some c) {r : SpanRecord}
    (holds : r.id = b.identifier.toNat) (selection : Byte) :
    HoldsTheFields b (r.edited c (SpanClamp.clamped (SpanClamp.carried b)) selection) := by
  obtain ⟨-, bank, position, profile, cls, interval, phase⟩ := checkedFields_eq_some checked
  have core := edited_core r c (SpanClamp.clamped (SpanClamp.carried b)) selection
  have of_core {α : Type} (f : SpanRecord → α) (reads : ∀ q : SpanRecord, f q.core = f q) :
      f (r.edited c (SpanClamp.clamped (SpanClamp.carried b)) selection) =
        f (r.withFields c (SpanClamp.clamped (SpanClamp.carried b))) := by
    rw [← reads, core, reads]
  refine ⟨(of_core SpanRecord.id fun _ => rfl).trans holds, ?_, (of_core SpanRecord.position fun _ => rfl).trans position, ?_, ?_,
    (of_core SpanRecord.interval fun _ => rfl).trans interval, (of_core SpanRecord.phase fun _ => rfl).trans phase,
    (of_core SpanRecord.clamped fun _ => rfl).trans (clamped_carried b)⟩
  · rw [of_core SpanRecord.bank fun _ => rfl]
    exact bank
  · rw [of_core SpanRecord.profile fun _ => rfl]
    exact profile
  · rw [of_core SpanRecord.cls fun _ => rfl]
    exact cls

/-- The record that an edit leaves, before its mark (R9, R10). -/
def SpanRecord.rewritten (r : SpanRecord) (c : CheckedFields) (f : ClampedFields) (selection : Byte) : SpanRecord :=
  { r.withFields c f with
    missed := r.missed && !selection.getLsbD 0
    live := r.live && !selection.getLsbD 1
    overflow := r.overflow && !selection.getLsbD 2
    dropped := if selection.getLsbD 2 = true then 0 else r.dropped
    revision := if c.profile = r.profile ∧ f = r.clamped then r.revision else (r.revision + 1) % 65536 }

theorem countRevision_clearFlags (r : SpanRecord) (c : CheckedFields) (f : ClampedFields) (selection : Byte) :
    SpanRecord.countRevision r ((r.withFields c f).clearFlags selection) = r.rewritten c f selection := by
  unfold SpanRecord.countRevision SpanRecord.rewritten
  simp only [SpanRecord.clearFlags, flagBit_eq_getLsbD]
  by_cases same : c.profile = r.profile ∧ f = r.clamped
  · rw [if_pos same]
    exact if_pos same
  · rw [if_neg same]
    exact if_neg same

theorem edited_eq (r : SpanRecord) (c : CheckedFields) (f : ClampedFields) (selection : Byte) :
    r.edited c f selection =
      { r.rewritten c f selection with mark := r.mark || decide (r.rewritten c f selection ≠ r) } := by
  rw [SpanRecord.edited, countRevision_clearFlags, SpanRecord.markChange]
  split
  next same => simp [same]
  next differs => simp [differs]

/-- A moved port of a queued job calls for a dispatch pass (R174). -/
theorem editSpan_of_taken {s : State} {r : SpanRecord} {c : CheckedFields} {b : SpanFields} (taken : s.refusesEdit r c = none) :
    ∃ u, editSpan s r c b = (u, putReply b (r.edited c (SpanClamp.clamped (SpanClamp.carried b)) b.clearFlags)) ∧
      KeepsBut [.directory, .sched] s u ∧
      u.directory = (s.modifySpan r.id (fun _ => r.edited c (SpanClamp.clamped (SpanClamp.carried b)) b.clearFlags)).directory ∧
      u.sched = { s.sched with dispatchCalled := s.sched.dispatchCalled || (r.moves c && s.jobQueued r.id) } := by
  rw [editSpan, taken]
  refine ⟨_, rfl, ?_, ?_, ?_⟩
  · split
    · exact ((modifySpan_frame ..).mono (by decide)).trans ((callDispatch_frame _).mono (by decide))
    · exact (modifySpan_frame ..).mono (by decide)
  · split <;> rfl
  · split
    next calls => rw [calls, Bool.or_true]; rfl
    next stands => rw [Bool.eq_false_of_not_eq_true stands, Bool.or_false]; rfl

end Sys2Proof.Machine

namespace Sys2Proof

open Machine in
/-- Settles O24, in the order of R6: the identifier, the checked fields, then the span named or the room for a new one, and last
the port. -/
theorem spanPutRefusalsGoInOrder : Obligations.SpanPutRefusalsGoInOrder := by
  intro b s ready law
  refine ⟨spanPut_zero ready, spanPut_outside ready, fun nonzero inRange l letter => ⟨fun r hr holds => ⟨?retiring, ?moves⟩, ?new⟩⟩
  all_goals obtain ⟨c, checked, rfl, position⟩ := checkedFields_of_letter inRange letter
  all_goals have here := discardPending_present s c.bank
  case retiring =>
    exact fun retiring => spanPut_editRefused ready nonzero checked law hr holds (refusesEdit_of_retiring retiring)
  case moves =>
    rw [← position]
    have refused := fun {status} => spanPut_editRefused (status := status) ready nonzero checked law hr holds
    refine fun notRetiring moves => ⟨fun busy => ?_, fun free absent => ?_, fun free present bound => ?_⟩
    · exact refused (refusesEdit_of_busy notRetiring moves busy)
    · exact refused ((refusesEdit_of_moves (s := s.discardPending) notRetiring moves free).trans
        (refusesPort_of_absent _ (here.trans absent)))
    · exact refused ((refusesEdit_of_moves (s := s.discardPending) notRetiring moves free).trans
        (refusesPort_of_bound (here.trans present) bound))
  case new =>
    rw [← position]
    refine fun unheld => ⟨fun full => ?_, fun room absent => ?_, fun room present bound => ?_⟩
    · exact spanPut_creationRefused ready nonzero checked unheld (refusesCreation_of_full full)
    · exact spanPut_creationRefused ready nonzero checked unheld ((refusesCreation_of_room (s := s.discardPending) room).trans
        (refusesPort_of_absent _ (here.trans absent)))
    · exact spanPut_creationRefused ready nonzero checked unheld ((refusesCreation_of_room (s := s.discardPending) room).trans
        (refusesPort_of_bound (here.trans present) bound))

open Machine in
/-- Settles O22: the new record, and the vacated reports that the directory keeps beside it. -/
theorem spanPutCreatesADraftSpan : Obligations.SpanPutCreatesADraftSpan := by
  intro b l s ready nonzero inRange letter unheld room present free
  obtain ⟨c, checked, rfl, position⟩ := checkedFields_of_letter inRange letter
  rw [← position] at free
  have taken : s.discardPending.refusesCreation c = none := by
    rw [refusesCreation_of_room (s := s.discardPending) room,
      refusesPort_of_free (s := s.discardPending) (by rwa [discardPending_present]) free]
  have created : actSpanPut b s.discardPending =
      (s.discardPending.entered (createdSpan b.identifier.toNat c (SpanClamp.clamped (SpanClamp.carried b))),
        { status := putStatus b (createdSpan b.identifier.toNat c (SpanClamp.clamped (SpanClamp.carried b)))
          body := spanRecordBytes (createdSpan b.identifier.toNat c (SpanClamp.clamped (SpanClamp.carried b))) }) := by
    rw [actSpanPut_of_none (s := s.discardPending) nonzero checked (findSpan_eq_none unheld), createSpan, taken, ← putReply_eq rfl]
    rfl
  obtain ⟨runs, answered, keeps⟩ := exec_of_act (i := .spanPut b) (l := [.directory]) (n := 28) ready rfl created
    (keepsBut_of_all (fun p => by cases p <;> first | (left; simp; done) | exact .inr rfl)) (by decide)
  refine ⟨_, _, runs, answered, keeps, holdsTheFields_created checked, rfl, rfl, rfl, rfl, rfl, rfl, rfl, rfl, rfl, rfl, rfl,
    rfl, fun q => ?_, fun short i => ?_, fun law vacated i => ?_, fun law full absent => ?_⟩
  · exact (perm_spans_entered s _).mem_iff.trans List.mem_cons
  · exact vacated_mem_enter.trans (vacated_mem_roomFor (Nat.lt_of_le_of_lt (List.length_filter_le ..) short))
  · exact vacated_mem_enter.trans (vacated_mem_roomFor (Nat.lt_of_lt_of_le (length_othersThan_lt vacated) law.room))
  · obtain ⟨low, mem, least, reports⟩ := lowest_leaves law full room absent
    exact ⟨low, mem, least, fun i => vacated_mem_enter.trans (reports i)⟩

open Machine in
/-- Settles O23: an edit at the span's own port, or at a free one while its job has not left QUEUED. -/
theorem spanPutEditsTheSpan : Obligations.SpanPutEditsTheSpan := by
  intro b l r s ready law hr holds inRange letter notRetiring port
  obtain ⟨c, checked, rfl, position⟩ := checkedFields_of_letter inRange letter
  rw [← position] at port
  have taken : s.discardPending.refusesEdit r c = none := by
    by_cases stays : r.bank = c.bank ∧ r.position = c.position
    · exact refusesEdit_of_stays notRetiring stays
    · obtain ⟨free, present, unbound⟩ := port.resolve_left stays
      exact (refusesEdit_of_moves (s := s.discardPending) notRetiring stays free).trans
        (refusesPort_of_free ((discardPending_present s c.bank).trans present) unbound)
  have nonzero : b.identifier.toNat ≠ 0 := nonzero_of_held law hr holds
  obtain ⟨u, edits, frame, directory, sched⟩ := editSpan_of_taken (b := b) taken
  have fields := holdsTheFields_edited checked holds b.clearFlags
  have acts := (actSpanPut_of_found (s := s.discardPending) nonzero checked (findSpan_of_held law hr holds)).trans edits
  rw [putReply_eq (fields.clamped.trans (clamped_carried b).symm)] at acts
  obtain ⟨runs, answered, keeps⟩ := exec_of_act (i := .spanPut b) (n := 28) ready rfl acts frame (by decide)
  have becomes : SpanBecomes r.id (fun _ => r.edited c (SpanClamp.clamped (SpanClamp.carried b)) b.clearFlags) s u :=
    (spanBecomes_modifySpan (s := s) (fun _ _ => edited_id ..)).congr_right directory
  refine ⟨_, _, runs, answered, keeps, becomes.congr_right rfl, fields, ?_⟩
  have unmarked : { r.edited c (SpanClamp.clamped (SpanClamp.carried b)) b.clearFlags with mark := r.mark } =
      r.rewritten c (SpanClamp.clamped (SpanClamp.carried b)) b.clearFlags := by
    rw [edited_eq]
    rfl
  have moves : decide (¬(c.bank = r.bank ∧ c.position = r.position)) = r.moves c := by
    rw [Bool.eq_iff_iff, decide_eq_true_iff, moves_eq_true_iff, eq_comm (a := c.bank), eq_comm (a := c.position)]
  rw [unmarked, edited_eq]
  refine ⟨rfl, rfl, rfl, rfl, rfl, rfl, rfl, rfl, rfl, rfl, rfl, rfl, ?_⟩
  exact sched.trans (by rw [← moves]; rfl)

end Sys2Proof
end

section
/-! PROOFS. SPAN_LEARN and SPAN_RETIRE (R16, R18 to R20): what each answers, and what becomes of the span and of its job by the
place where the job stands; O26 and O27. -/

namespace Sys2Proof.Machine

/-! ### SPAN_LEARN (R16) -/

section Learn

variable {s : State} {r : SpanRecord}

theorem refusesLearn_of_state (state : r.state = .learning ∨ r.state = .retiring) : s.refusesLearn r = some .wrongState :=
  if_pos state

variable (notLearning : r.state ≠ .learning) (notRetiring : r.state ≠ .retiring)
include notLearning notRetiring

theorem refusesLearn_of_busy (busy : (s.jobPlace r.id).isSome = true) : s.refusesLearn r = some .spanBusy := by
  simp [State.refusesLearn, notLearning, notRetiring, busy]

theorem refusesLearn_of_full (jobless : s.jobPlace r.id = none) (full : 8 ≤ s.sched.demandQueue.length) :
    s.refusesLearn r = some .queueFull := by
  simp [State.refusesLearn, notLearning, notRetiring, jobless, full]

theorem refusesLearn_of_room (jobless : s.jobPlace r.id = none) (room : s.sched.demandQueue.length < 8) :
    s.refusesLearn r = none := by
  simp [State.refusesLearn, notLearning, notRetiring, jobless, Nat.not_le.mpr room]

end Learn

theorem actSpanLearn_of_none {id : U16} {s : State} (unheld : s.findSpan id.toNat = none) :
    actSpanLearn id s = (s, Reply.refusal .notFound) := by
  rw [actSpanLearn, unheld]

section Found

variable {id : U16} {s : State} {r : SpanRecord} (found : s.findSpan id.toNat = some r)
include found

theorem actSpanLearn_of_refused {status : Status} (refused : s.refusesLearn r = some status) :
    actSpanLearn id s = (s, Reply.refusal status) := by
  simp only [actSpanLearn, found, refused]

theorem actSpanLearn_of_taken (taken : s.refusesLearn r = none) :
    actSpanLearn id s =
      ((s.modifySpan id.toNat SpanRecord.beginLearn).tailOfDemandQueue { span := id.toNat, learn := true },
        stateReply id.toNat .learning) := by
  simp only [actSpanLearn, found, taken]

end Found

theorem learnBegun_frame (s : State) (id : Nat) :
    KeepsBut [.directory, .sched] s
      ((s.modifySpan id SpanRecord.beginLearn).tailOfDemandQueue { span := id, learn := true }) :=
  keepsBut_of_all (fun p => by cases p <;> first | (left; simp; done) | exact .inr rfl)

/-! ### SPAN_RETIRE (R18, R19) -/

theorem actSpanRetire_of_none {id : U16} {s : State} (unheld : s.findSpan id.toNat = none) :
    actSpanRetire id s = (s, Reply.refusal .notFound) := by
  rw [actSpanRetire, unheld]

section Found

variable {id : U16} {s : State} {r : SpanRecord} (found : s.findSpan id.toNat = some r)
include found

theorem actSpanRetire_of_retiring (retiring : r.state = .retiring) :
    actSpanRetire id s = (s, stateReply id.toNat .retiring) := by
  simp only [actSpanRetire, found, retiring, if_true]

theorem actSpanRetire_of_other (holds : r.id = id.toNat) (notRetiring : r.state ≠ .retiring) :
    actSpanRetire id s = retireSpan s r.id := by
  simp only [actSpanRetire, found, notRetiring, if_false, holds]

end Found

section Place

variable {s : State} {id : Nat}

theorem retireSpan_of_jobless (jobless : s.jobPlace id = none) : retireSpan s id = (s.becomeEmpty id, emptyReply id) := by
  rw [retireSpan, jobless]

theorem retireSpan_of_place {p : JobPlace} (place : s.jobPlace id = some p) (notAnalysing : ∀ a, p ≠ .analysing a) :
    retireSpan s id = ((s.removeJob id p).becomeEmpty id, emptyReply id) := by
  cases p with
  | analysing a => exact absurd rfl (notAnalysing a)
  | classQueue c => rw [retireSpan, place]
  | demandQueue k => rw [retireSpan, place]
  | channel ch f => rw [retireSpan, place]
  | waiting f => rw [retireSpan, place]

theorem retireSpan_of_analysing {a : Analysis} (place : s.jobPlace id = some (.analysing a)) :
    retireSpan s id = (s.modifySpan id (SpanRecord.goTo .retiring), stateReply id .retiring) := by
  rw [retireSpan, place]

end Place

/-! ### What the removal of a job leaves, whatever is written after it -/

theorem Emptied.congr {id : Nat} {s t u v : State} (h : Emptied id u v) (directory : u.directory = s.directory)
    (table : u.table = s.table) (sameDirectory : t.directory = v.directory) (sameTable : t.table = v.table) :
    Emptied id s t where
  spans := by rw [State.spans, sameDirectory, ← State.spans, h.spans, State.spans, directory]; rfl
  order := by rw [sameDirectory, h.order, directory]
  report i := by rw [sameDirectory, h.report, State.spans, directory]; rfl
  conditions := by rw [sameTable, h.conditions, table]
  counter := by rw [sameTable, h.counter, table]
  severity := by rw [sameTable, h.severity, table]

theorem GivesUp.congr {ch : Letter} {f : Flight} {rest : Activity} {s t u v : State} (h : GivesUp ch f rest u v)
    (before : KeepsBut [.link, .directory, .table, .sched, .now] s u)
    (after : KeepsBut [.link, .directory, .table, .sched, .now] v t) :
    GivesUp ch f rest s t := by
  have same {p : Part} (h : p ∉ [Part.link, .directory, .table, .sched, .now]) := And.intro (before.same p h) (after.same p h)
  obtain ⟨channels, channels'⟩ := same (p := .channels) (by decide)
  obtain ⟨buffers, buffers'⟩ := same (p := .buffers) (by decide)
  obtain ⟨banks, banks'⟩ := same (p := .banks) (by decide)
  simp only [Part.Same] at channels channels' buffers buffers' banks banks'
  exact ⟨by rw [channels', h.channels, channels], fun i => by rw [buffers', h.buffers, buffers],
    fun l => by rw [banks', h.banks, banks]⟩

/-- An abort of the job at a channel gives it up, and calls for a dispatch pass (R90). -/
theorem abortChannel_of_place {s : State} {id : Nat} {ch : Letter} {f : Flight}
    (place : s.jobPlace id = some (.channel ch f)) :
    s.abortChannel ch = s.dropFlight ch f (if s.inputs.inhibit then .inhibited else .idle) :=
  abortChannel_of_flight (holdsJobOf_of_jobPlace place).1

/-- A job leaves the analysis queue while the engine is at work (R103). -/
theorem leaveAnalysisQueue_of_current {s : State} (j : JobId) (current : s.engine.current.isSome = true) :
    s.leaveAnalysisQueue j =
      { s.freeBuffersOf j with
        engine := { s.engine with queue := s.engine.queue.filter (fun g => g.work.id != j) } } :=
  takeHead_of_current current

/-! ### The answers of SPAN_RETIRE -/

section Retire

variable {id : U16} {s : State} (ready : s.ready = true) (law : DirectoryLaw s) {r : SpanRecord} (hr : r ∈ s.spans)
  (holds : r.id = id.toNat) (notRetiring : r.state ≠ .retiring)
include ready law hr holds notRetiring

theorem spanRetire_jobless (jobless : s.jobPlace r.id = none) :
    ∃ t, exec (.spanRetire id) s = .next t ∧ Answered s t .ok (be16 r.id ++ [0]) ∧
      KeepsBut [.link, .directory, .table] s t ∧ Emptied r.id s t := by
  have found : s.discardPending.findSpan id.toNat = some r := findSpan_of_held law hr holds
  have acts := (actSpanRetire_of_other found holds notRetiring).trans (retireSpan_of_jobless (s := s.discardPending) jobless)
  obtain ⟨runs, answered, keeps⟩ := exec_of_act (i := .spanRetire id) (n := 5) ready rfl acts (becomeEmpty_frame ..) (by decide)
  exact ⟨_, runs, answered, keeps, (emptied_becomeEmpty s r.id).congr rfl rfl rfl rfl⟩

/-- The job is removed from its place and the span becomes EMPTY, in one act. -/
theorem spanRetire_place {p : JobPlace} (place : s.jobPlace r.id = some p) (notAnalysing : ∀ a, p ≠ .analysing a)
    {l : List Part} (frame : KeepsBut l s.discardPending (s.discardPending.removeJob r.id p)) (notLink : .link ∉ l) :
    ∃ t, exec (.spanRetire id) s = .next t ∧ Answered s t .ok (be16 r.id ++ [0]) ∧
      KeepsBut (.link :: .directory :: .table :: l) s t ∧ Emptied r.id s t ∧
      KeepsBut [.link, .directory, .table] (s.discardPending.removeJob r.id p) t := by
  have found : s.discardPending.findSpan id.toNat = some r := findSpan_of_held law hr holds
  have acts := (actSpanRetire_of_other found holds notRetiring).trans
    (retireSpan_of_place (s := s.discardPending) place notAnalysing)
  have whole := (frame.mono (m := .directory :: .table :: l) (by simp +contextual)).trans
    ((becomeEmpty_frame (s.discardPending.removeJob r.id p) r.id).mono (by simp))
  obtain ⟨runs, answered, keeps⟩ := exec_of_act (i := .spanRetire id) (n := 5) ready rfl acts whole (by simpa using notLink)
  have removed := removeJob_frame s.discardPending r.id p
  refine ⟨_, runs, answered, keeps, (emptied_becomeEmpty _ r.id).congr (removed.same .directory (by decide))
    (removed.same .table (by decide)) rfl rfl, ?_⟩
  exact keepsBut_of_all fun p => by cases p <;> first | (left; simp; done) | exact .inr rfl

theorem spanRetire_analysing {a : Analysis} (place : s.jobPlace r.id = some (.analysing a)) :
    ∃ t, exec (.spanRetire id) s = .next t ∧ Answered s t .ok (be16 r.id ++ [5]) ∧ KeepsBut [.link, .directory] s t ∧
      SpanBecomes r.id (fun q => { q with state := .retiring, mark := true }) s t := by
  have found : s.discardPending.findSpan id.toNat = some r := findSpan_of_held law hr holds
  have acts := (actSpanRetire_of_other found holds notRetiring).trans
    (retireSpan_of_analysing (s := s.discardPending) place)
  obtain ⟨runs, answered, keeps⟩ := exec_of_act (i := .spanRetire id) (n := 5) ready rfl acts (modifySpan_frame ..) (by decide)
  exact ⟨_, runs, answered, keeps,
    (spanBecomes_modifySpan (s := s) (f := SpanRecord.goTo .retiring) fun _ h => h).congr_right rfl⟩

end Retire

end Sys2Proof.Machine

namespace Sys2Proof

open Machine in
/-- Settles O26, refusal by refusal, and then the taken request. -/
theorem spanLearnQueuesALearnJob : Obligations.SpanLearnQueuesALearnJob := by
  intro id s ready law
  refine ⟨fun unheld => turnsAway_of_act ready rfl (actSpanLearn_of_none (findSpan_eq_none unheld)), fun r hr holds => ?_⟩
  have found : s.discardPending.findSpan id.toNat = some r := findSpan_of_held law hr holds
  have refused {status : Status} (refused : s.discardPending.refusesLearn r = some status) :
      TurnsAway (.spanLearn id) s status :=
    turnsAway_of_act ready rfl (actSpanLearn_of_refused found refused)
  refine ⟨fun state => refused (refusesLearn_of_state state), fun notLearning notRetiring => ⟨fun busy => ?_, fun jobless full => ?_,
    fun jobless room => ?_⟩⟩
  · exact refused (refusesLearn_of_busy (s := s.discardPending) notLearning notRetiring busy)
  · exact refused (refusesLearn_of_full (s := s.discardPending) notLearning notRetiring jobless full)
  · have acts := actSpanLearn_of_taken found
      (refusesLearn_of_room (s := s.discardPending) notLearning notRetiring jobless room)
    rw [← holds] at acts
    obtain ⟨runs, answered, keeps⟩ := exec_of_act (i := .spanLearn id) (n := 5) ready rfl acts (learnBegun_frame ..) (by decide)
    exact ⟨_, runs, answered, keeps, (spanBecomes_modifySpan (s := s) (f := SpanRecord.beginLearn) fun _ h => h).congr_right rfl,
      rfl⟩

open Machine in
/-- Settles O27, by the place where the span's job stands. -/
theorem spanRetireEmptiesTheSpan : Obligations.SpanRetireEmptiesTheSpan := by
  intro id s ready law
  refine ⟨fun unheld => turnsAway_of_act ready rfl (actSpanRetire_of_none (findSpan_eq_none unheld)), fun r hr holds =>
    ⟨fun retiring => ?retiring, fun notRetiring => ⟨spanRetire_jobless ready law hr holds notRetiring, ?queued, fun ch f place => ?channel,
      fun f place current => ?waiting, fun a place => spanRetire_analysing ready law hr holds notRetiring place⟩⟩⟩
  case retiring =>
    have found : s.discardPending.findSpan id.toNat = some r := findSpan_of_held law hr holds
    exact readsOut_of_act ready rfl (holds ▸ actSpanRetire_of_retiring found retiring)
  case queued =>
    rintro (⟨c, place⟩ | ⟨k, place⟩)
    · obtain ⟨t, runs, answered, keeps, emptied, after⟩ := spanRetire_place ready law hr holds notRetiring place
        (by rintro _ ⟨⟩) (l := [.sched]) (keepsBut_of_all fun p => by cases p <;> first | (left; simp; done) | exact .inr rfl)
        (by decide)
      have sched : t.sched = (s.leaveClassQueue r.id).sched := after.same .sched (by decide)
      refine ⟨t, runs, answered, keeps, emptied, by rw [sched]; rfl, by rw [sched]; rfl, fun _ => ⟨by rw [sched]; rfl, by rw [sched]; rfl⟩,
        fun ⟨k, other⟩ => ?_⟩
      cases place.symm.trans other
    · obtain ⟨t, runs, answered, keeps, emptied, after⟩ := spanRetire_place ready law hr holds notRetiring place
        (by rintro _ ⟨⟩) (l := [.sched]) (keepsBut_of_all fun p => by cases p <;> first | (left; simp; done) | exact .inr rfl)
        (by decide)
      have sched : t.sched = (s.leaveDemandQueue r.id).sched := after.same .sched (by decide)
      refine ⟨t, runs, answered, keeps, emptied, by rw [sched]; rfl, by rw [sched]; rfl, fun ⟨c, other⟩ => ?_,
        fun _ => ⟨by rw [sched]; rfl, by rw [sched]; rfl⟩⟩
      cases place.symm.trans other
  case channel =>
    obtain ⟨t, runs, answered, keeps, emptied, after⟩ := spanRetire_place ready law hr holds notRetiring place
      (by rintro _ ⟨⟩) (abortChannel_frame ..) (by decide)
    have aborted : s.discardPending.removeJob r.id (.channel ch f) =
        s.discardPending.dropFlight ch f (if s.inputs.inhibit then .inhibited else .idle) :=
      abortChannel_of_place (s := s.discardPending) place
    rw [aborted] at after
    refine ⟨t, runs, answered, keeps.mono (by decide), emptied, ?_, after.same .sched (by decide)⟩
    exact (givesUp_dropFlight s.discardPending ch f _).congr ((discardPending_frame s).mono (by decide)) (after.mono (by decide))
  case waiting =>
    obtain ⟨t, runs, answered, keeps, emptied, after⟩ := spanRetire_place ready law hr holds notRetiring place
      (by rintro _ ⟨⟩) (leaveAnalysisQueue_frame ..) (by decide)
    have left : s.discardPending.removeJob r.id (.waiting f) = _ := leaveAnalysisQueue_of_current (s := s.discardPending) _ current
    rw [left] at after
    have buffers : t.buffers = (s.freeBuffersOf (.span r.id)).buffers := after.same .buffers (by decide)
    exact ⟨t, runs, answered, keeps.mono (by decide), emptied, after.same .sched (by decide),
      fun i => by rw [buffers, buffers_freeBuffersOf], after.same .engine (by decide)⟩

end Sys2Proof
end

section
/-! PROOFS. TEST_NOW and TEST_CANCEL (R171, R172): the refusals in their order, the job queued, and the ending of a job by the
place where it stands; O31 and O32. -/

namespace Sys2Proof.Machine

/-! ### TEST_NOW (R171)
The refusals of TEST_NOW on a span that exists are those of SPAN_LEARN. -/

theorem refusesTest_eq_refusesLearn (s : State) (r : SpanRecord) : s.refusesTest r = s.refusesLearn r := rfl

section Act

variable {id : U16} {s : State}

theorem actTestNow_of_zero (zero : id.toNat = 0) : actTestNow id s = (s, Reply.refusal .badField) := if_pos zero

variable (nonzero : id.toNat ≠ 0)
include nonzero

theorem actTestNow_of_none (unheld : s.findSpan id.toNat = none) : actTestNow id s = (s, Reply.refusal .notFound) := by
  rw [actTestNow, if_neg nonzero, unheld]

variable {r : SpanRecord} (found : s.findSpan id.toNat = some r)
include found

theorem actTestNow_of_refused {status : Status} (refused : s.refusesLearn r = some status) :
    actTestNow id s = (s, Reply.refusal status) := by
  rw [← refusesTest_eq_refusesLearn] at refused
  simp only [actTestNow, nonzero, if_false, found, refused]

theorem actTestNow_of_taken (taken : s.refusesLearn r = none) :
    actTestNow id s = (s.tailOfDemandQueue { span := id.toNat, learn := false },
      { status := .ok, body := [byte (s.sched.demandQueue.length + 1)] }) := by
  rw [← refusesTest_eq_refusesLearn] at taken
  simp only [actTestNow, nonzero, if_false, found, taken]

end Act

/-! ### TEST_CANCEL (R172) -/

section Act

variable {id : U16} {s : State}

theorem actTestCancel_of_zero (zero : id.toNat = 0) : actTestCancel id s = (s, Reply.refusal .badField) := if_pos zero

variable (nonzero : id.toNat ≠ 0)
include nonzero

theorem actTestCancel_of_none (unheld : s.findSpan id.toNat = none) :
    actTestCancel id s = (s, Reply.refusal .notFound) := by
  rw [actTestCancel, if_neg nonzero, unheld]

variable {r : SpanRecord} (found : s.findSpan id.toNat = some r)
include found

theorem actTestCancel_of_retiring (retiring : r.state = .retiring) :
    actTestCancel id s = (s, Reply.refusal .wrongState) := by
  simp only [actTestCancel, nonzero, if_false, found, retiring, if_true]

variable (notRetiring : r.state ≠ .retiring)
include notRetiring

theorem actTestCancel_of_jobless (jobless : s.jobPlace id.toNat = none) :
    actTestCancel id s = (s, Reply.refusal .wrongState) := by
  simp only [actTestCancel, nonzero, if_false, found, notRetiring, jobless]

variable {p : JobPlace} (place : s.jobPlace id.toNat = some p)
include place

theorem actTestCancel_of_scheduled (scheduled : p.isScheduled = true) :
    actTestCancel id s = (s, Reply.refusal .wrongState) := by
  simp only [actTestCancel, nonzero, if_false, found, notRetiring, place, scheduled, if_true]

theorem actTestCancel_of_taken (notScheduled : p.isScheduled = false) :
    actTestCancel id s = (cancelJob s id.toNat p, { status := .ok, body := [] }) := by
  simp only [actTestCancel, nonzero, if_false, found, notRetiring, place, notScheduled, Bool.false_eq_true]

end Act

/-! ### What a cancel writes to the span -/

/-- A cancel writes what an ending with CANCELLED writes. -/
theorem writeCancelled_eq (s : State) (id : Nat) (learn : Bool) :
    s.writeCancelled id learn = s.endWithOutcome (.test (if learn then .learn else .demand) id 0) .cancelled := by
  cases learn <;> rfl

theorem spanBecomes_writeCancelled (s : State) (id : Nat) (learn : Bool) :
    SpanBecomes id (SpanRecord.ended (if learn then .learn else .demand) .cancelled s.timeBase.windowNumber) s
      (s.writeCancelled id learn) := by
  rw [writeCancelled_eq]
  exact ended_endWithOutcome s (.test (if learn then .learn else .demand) id 0) (by decide) (by decide)

/-- A test that is not SCHEDULED is a LEARN job or a DEMAND job. -/
theorem kind_of_not_scheduled {kind : TestKind} {id rev : Nat} (notScheduled : (Work.test kind id rev).isScheduled = false) :
    (if (Work.test kind id rev).isLearn then TestKind.learn else .demand) = kind := by
  cases kind with
  | demand => rfl
  | learn => rfl
  | scheduled c => cases notScheduled

theorem cancelJob_of_place {s : State} {id : Nat} {p : JobPlace} (notAnalysing : ∀ a, p ≠ .analysing a) :
    cancelJob s id p = (s.removeJob id p).writeCancelled id p.isLearn := by
  cases p with
  | analysing a => exact absurd rfl (notAnalysing a)
  | _ => rfl

theorem cancelJob_of_cancelled {s : State} {id : Nat} {a : Analysis} (cancelled : a.flight.cancelled = true) :
    cancelJob s id (.analysing a) = s := by
  simp only [cancelJob, cancelled, if_true]

theorem cancelJob_of_analysing {s : State} {id : Nat} {a : Analysis} (notCancelled : a.flight.cancelled = false) :
    cancelJob s id (.analysing a) = (s.markCancelled a).writeCancelled id a.flight.work.isLearn := by
  simp only [cancelJob, notCancelled, Bool.false_eq_true, if_false]
  rfl

/-! ### The answers of a taken TEST_CANCEL -/

section Cancel

variable {id : U16} {s : State} (ready : s.ready = true) (law : DirectoryLaw s) {r : SpanRecord} (hr : r ∈ s.spans)
  (holds : r.id = id.toNat) (notRetiring : r.state ≠ .retiring) {p : JobPlace} (place : s.jobPlace r.id = some p)
  (notScheduled : p.isScheduled = false)
include ready law hr holds notRetiring place notScheduled

omit ready in
theorem actTestCancel_of_held :
    actTestCancel id s.discardPending = (cancelJob s.discardPending r.id p, { status := .ok, body := [] }) := by
  have found : s.discardPending.findSpan id.toNat = some r := findSpan_of_held law hr holds
  have here : s.discardPending.jobPlace id.toNat = some p := by rw [← holds]; exact place
  rw [actTestCancel_of_taken (nonzero_of_held law hr holds) found notRetiring here notScheduled, holds]

/-- The job is removed from its place and CANCELLED written to its span, in one act. -/
theorem testCancel_place (notAnalysing : ∀ a, p ≠ .analysing a) {l : List Part}
    (frame : KeepsBut l s.discardPending (s.discardPending.removeJob r.id p)) (notLink : .link ∉ l) :
    ∃ t, exec (.testCancel id) s = .next t ∧ Answered s t .ok [] ∧ KeepsBut (.link :: .directory :: l) s t ∧
      SpanBecomes r.id (SpanRecord.ended (if p.isLearn then .learn else .demand) .cancelled s.timeBase.windowNumber) s t ∧
      KeepsBut [.link, .directory] (s.discardPending.removeJob r.id p) t := by
  have acts := actTestCancel_of_held law hr holds notRetiring place notScheduled
  rw [cancelJob_of_place notAnalysing] at acts
  have whole := (frame.mono (m := .directory :: l) (by simp +contextual)).trans
    ((writeCancelled_frame (s.discardPending.removeJob r.id p) r.id p.isLearn).mono (by simp))
  obtain ⟨runs, answered, keeps⟩ := exec_of_act (i := .testCancel id) (n := 5) ready rfl acts whole (by simpa using notLink)
  have removed := removeJob_frame s.discardPending r.id p
  have directory : (s.discardPending.removeJob r.id p).directory = s.directory := removed.same .directory (by decide)
  have timeBase : (s.discardPending.removeJob r.id p).timeBase = s.timeBase := removed.same .timeBase (by decide)
  have written := spanBecomes_writeCancelled (s.discardPending.removeJob r.id p) r.id p.isLearn
  rw [timeBase] at written
  refine ⟨_, runs, answered, keeps, (written.congr_left directory.symm).congr_right rfl, ?_⟩
  exact ((writeCancelled_frame ..).mono (by decide)).trans
    (keepsBut_of_all fun p => by cases p <;> first | (left; simp; done) | exact .inr rfl)

end Cancel

theorem testCancel_cancelled {id : U16} {s : State} (ready : s.ready = true) (law : DirectoryLaw s) {r : SpanRecord}
    (hr : r ∈ s.spans) (holds : r.id = id.toNat) (notRetiring : r.state ≠ .retiring) {a : Analysis}
    (place : s.jobPlace r.id = some (.analysing a)) (notScheduled : a.flight.work.isScheduled = false)
    (cancelled : a.flight.cancelled = true) : ReadsOut (.testCancel id) s [] := by
  have acts := actTestCancel_of_held law hr holds notRetiring place notScheduled
  rw [cancelJob_of_cancelled cancelled] at acts
  exact readsOut_of_act (n := 5) (act := actTestCancel id) ready rfl acts

theorem testCancel_analysing {id : U16} {s : State} (ready : s.ready = true) (law : DirectoryLaw s) {r : SpanRecord}
    (hr : r ∈ s.spans) (holds : r.id = id.toNat) (notRetiring : r.state ≠ .retiring) {a : Analysis}
    (place : s.jobPlace r.id = some (.analysing a)) (notScheduled : a.flight.work.isScheduled = false)
    (notCancelled : a.flight.cancelled = false) :
    ∃ t, exec (.testCancel id) s = .next t ∧ Answered s t .ok [] ∧ KeepsBut [.link, .directory, .engine] s t ∧
      SpanBecomes r.id (SpanRecord.ended (if a.flight.work.isLearn then .learn else .demand) .cancelled
        s.timeBase.windowNumber) s t ∧
      t.engine = { s.engine with current := some { a with flight := { a.flight with cancelled := true } } } := by
  have acts := actTestCancel_of_held law hr holds notRetiring place notScheduled
  rw [cancelJob_of_analysing notCancelled] at acts
  have whole := ((markCancelled_frame s.discardPending a).mono (by decide)).trans
    ((writeCancelled_frame (s.discardPending.markCancelled a) r.id a.flight.work.isLearn).mono (by decide) :
      KeepsBut [.directory, .engine] _ _)
  obtain ⟨runs, answered, keeps⟩ := exec_of_act (i := .testCancel id) (n := 5) ready rfl acts whole (by decide)
  have written := spanBecomes_writeCancelled (s.discardPending.markCancelled a) r.id a.flight.work.isLearn
  have engine := (writeCancelled_frame (s.discardPending.markCancelled a) r.id a.flight.work.isLearn).same .engine (by decide)
  exact ⟨_, runs, answered, keeps, (written.congr_left (u := s) rfl).congr_right rfl, engine⟩

end Sys2Proof.Machine

namespace Sys2Proof

open Machine in
/-- Settles O31, refusal by refusal, and then the taken request. -/
theorem testNowQueuesADemandJob : Obligations.TestNowQueuesADemandJob := by
  intro id s ready law
  refine ⟨fun zero => turnsAway_of_act ready rfl (actTestNow_of_zero zero),
    fun nonzero unheld => turnsAway_of_act ready rfl (actTestNow_of_none nonzero (findSpan_eq_none unheld)),
    fun r hr holds => ?_⟩
  have found : s.discardPending.findSpan id.toNat = some r := findSpan_of_held law hr holds
  have nonzero := nonzero_of_held law hr holds
  have refused {status : Status} (refused : s.discardPending.refusesLearn r = some status) :
      TurnsAway (.testNow id) s status :=
    turnsAway_of_act ready rfl (actTestNow_of_refused nonzero found refused)
  refine ⟨fun state => refused (refusesLearn_of_state state), fun notLearning notRetiring => ⟨fun busy => ?_,
    fun jobless full => ?_, fun jobless room => ?_⟩⟩
  · exact refused (refusesLearn_of_busy (s := s.discardPending) notLearning notRetiring busy)
  · exact refused (refusesLearn_of_full (s := s.discardPending) notLearning notRetiring jobless full)
  · have acts := actTestNow_of_taken nonzero found
      (refusesLearn_of_room (s := s.discardPending) notLearning notRetiring jobless room)
    rw [← holds] at acts
    obtain ⟨runs, answered, keeps⟩ := exec_of_act (i := .testNow id) (n := 5) (l := [.sched]) ready rfl acts
      (keepsBut_of_all fun p => by cases p <;> first | (left; simp; done) | exact .inr rfl) (by decide)
    exact ⟨_, runs, answered, keeps, rfl⟩

open Machine in
/-- Settles O32, refusal by refusal, and then by the place where the job stands. -/
theorem testCancelEndsTheJob : Obligations.TestCancelEndsTheJob := by
  intro id s ready law
  refine ⟨fun zero => turnsAway_of_act ready rfl (actTestCancel_of_zero zero),
    fun nonzero unheld => turnsAway_of_act ready rfl (actTestCancel_of_none nonzero (findSpan_eq_none unheld)),
    fun r hr holds => ?_⟩
  have found : s.discardPending.findSpan id.toNat = some r := findSpan_of_held law hr holds
  have nonzero := nonzero_of_held law hr holds
  refine ⟨fun retiring => turnsAway_of_act ready rfl (actTestCancel_of_retiring nonzero found retiring),
    fun notRetiring jobless => turnsAway_of_act ready rfl
      (actTestCancel_of_jobless (s := s.discardPending) nonzero found notRetiring (by rw [← holds]; exact jobless)),
    fun notRetiring p place => ⟨fun scheduled => turnsAway_of_act ready rfl
      (actTestCancel_of_scheduled (s := s.discardPending) nonzero found notRetiring (by rw [← holds]; exact place) scheduled),
      fun notScheduled => ⟨?queued, ?channel, ?waiting, ?analysing⟩⟩⟩
  case queued =>
    rintro k rfl
    obtain ⟨t, runs, answered, keeps, becomes, after⟩ := testCancel_place ready law hr holds notRetiring place notScheduled
      (by rintro _ ⟨⟩) (l := [.sched]) (keepsBut_of_all fun p => by cases p <;> first | (left; simp; done) | exact .inr rfl)
      (by decide)
    exact ⟨t, runs, answered, keeps, becomes, after.same .sched (by decide)⟩
  case channel =>
    rintro ch f kind rev rfl work
    obtain ⟨t, runs, answered, keeps, becomes, after⟩ := testCancel_place ready law hr holds notRetiring place notScheduled
      (by rintro _ ⟨⟩) (abortChannel_frame ..) (by decide)
    have aborted : s.discardPending.removeJob r.id (.channel ch f) =
        s.discardPending.dropFlight ch f (if s.inputs.inhibit then .inhibited else .idle) :=
      abortChannel_of_place (s := s.discardPending) place
    rw [aborted] at after
    simp only [JobPlace.isScheduled, JobPlace.isLearn, work] at notScheduled becomes
    rw [kind_of_not_scheduled notScheduled] at becomes
    refine ⟨t, runs, answered, keeps.mono (by decide), becomes, ?_, after.same .sched (by decide)⟩
    exact (givesUp_dropFlight s.discardPending ch f _).congr ((discardPending_frame s).mono (by decide)) (after.mono (by decide))
  case waiting =>
    rintro f kind rev rfl work current
    obtain ⟨t, runs, answered, keeps, becomes, after⟩ := testCancel_place ready law hr holds notRetiring place notScheduled
      (by rintro _ ⟨⟩) (leaveAnalysisQueue_frame ..) (by decide)
    have left : s.discardPending.removeJob r.id (.waiting f) = _ := leaveAnalysisQueue_of_current (s := s.discardPending) _ current
    rw [left] at after
    have buffers : t.buffers = (s.freeBuffersOf (.span r.id)).buffers := after.same .buffers (by decide)
    simp only [JobPlace.isScheduled, JobPlace.isLearn, work] at notScheduled becomes
    rw [kind_of_not_scheduled notScheduled] at becomes
    exact ⟨t, runs, answered, keeps.mono (by decide), becomes, after.same .sched (by decide),
      fun i => by rw [buffers, buffers_freeBuffersOf], after.same .engine (by decide)⟩
  case analysing =>
    rintro a kind rev rfl work
    refine ⟨testCancel_cancelled ready law hr holds notRetiring place notScheduled, fun notCancelled => ?_⟩
    obtain ⟨t, runs, answered, keeps, becomes, engine⟩ :=
      testCancel_analysing ready law hr holds notRetiring place notScheduled notCancelled
    simp only [JobPlace.isScheduled, work] at notScheduled becomes
    rw [kind_of_not_scheduled notScheduled] at becomes
    exact ⟨t, runs, answered, keeps, becomes, engine⟩

end Sys2Proof
end

section
/-! PROOFS. MARKS_APPEND (R32 to R34): the entries that its body carries, its refusals in their order, and the list that a taken
one leaves; O28 and O29. -/

namespace Sys2Proof.Machine

/-! ### The entries of a body (R201) -/

/-- The entry as its bytes carry it. -/
def Landmark.carried (m : Landmark) : CarriedMark :=
  { distance := m.distance, kind := landmarkKindCode m.kind, loss := m.loss, height := m.height }

/-- The entries are read back from the bytes that carry them. -/
theorem carriedMarks_landmarkBytes {marks : List Landmark}
    (widths : ∀ m ∈ marks, m.distance < 4294967296 ∧ m.loss < 65536 ∧ m.height < 65536) :
    carriedMarks (marks.flatMap landmarkBytes) = marks.map Landmark.carried := by
  induction marks with
  | nil => rfl
  | cons m rest ih =>
    obtain ⟨distance, loss, height⟩ := widths m List.mem_cons_self
    have kind : (byte (landmarkKindCode m.kind)).toNat = landmarkKindCode m.kind := by cases m.kind <;> rfl
    have bytes : (m :: rest).flatMap landmarkBytes =
        byte (m.distance / 16777216) :: byte (m.distance / 65536) :: byte (m.distance / 256) :: byte m.distance ::
          byte (landmarkKindCode m.kind) :: byte (m.loss / 256) :: byte m.loss :: byte (m.height / 256) :: byte m.height ::
          rest.flatMap landmarkBytes := rfl
    rw [bytes, carriedMarks, ih fun n hn => widths n (List.mem_cons_of_mem _ hn), join32_be32 distance, kind, join16_be16 loss,
      join16_be16 height]
    rfl

theorem length_flatMap_landmarkBytes (marks : List Landmark) : (marks.flatMap landmarkBytes).length = 9 * marks.length := by
  rw [List.length_flatMap, List.map_congr_left fun m _ => landmarkBytes_length m, List.map_const', List.sum_replicate,
    smul_eq_mul, Nat.mul_comm]

/-- The kind of an entry is the fifth of its nine bytes. -/
theorem exists_carried_of_kind {entries : List Byte} {n k : Nat} {kind : Byte} (length : entries.length = 9 * n) (within : k < n)
    (here : entries[9 * k + 4]? = some kind) : ∃ m ∈ carriedMarks entries, m.kind = kind.toNat := by
  induction entries using carriedMarks.induct generalizing n k with
  | case1 d3 d2 d1 d0 c l1 l0 h1 h0 rest ih =>
    rw [carriedMarks]
    cases k with
    | zero =>
      have same : c = kind := by simpa using here
      exact ⟨_, List.mem_cons_self, by rw [same]⟩
    | succ k =>
      have later : rest[9 * k + 4]? = some kind := by simpa [Nat.mul_add, Nat.add_right_comm _ 9 4] using here
      obtain ⟨m, mem, names⟩ := ih (n := n - 1) (by simp only [List.length_cons] at length; omega) (by omega) later
      exact ⟨m, List.mem_cons_of_mem _ mem, names⟩
  | case2 entries short =>
    match entries, length with
    | d3 :: d2 :: d1 :: d0 :: c :: l1 :: l0 :: h1 :: h0 :: rest, _ => exact absurd rfl (short d3 d2 d1 d0 c l1 l0 h1 h0 rest)
    | [], length | [_], length | [_, _], length | [_, _, _], length | [_, _, _, _], length | [_, _, _, _, _], length
    | [_, _, _, _, _, _], length | [_, _, _, _, _, _, _], length | [_, _, _, _, _, _, _, _], length =>
      simp only [List.length_cons, List.length_nil] at length
      omega

/-! ### Entries that a landmark may be (R32 step 5) -/

theorem landmark?_of_far {m : CarriedMark} (far : 12000000 < m.distance) : m.landmark? = none := if_pos far

theorem landmark?_of_kind {m : CarriedMark} (kind : 3 < m.kind) : m.landmark? = none := by
  have unnamed : landmarkKindOfNat m.kind = none := by
    match m.kind, kind with
    | n + 4, _ => rfl
  rw [CarriedMark.landmark?, unnamed]
  split <;> rfl

theorem landmark?_carried {m : Landmark} (near : m.distance ≤ 12000000) : m.carried.landmark? = some m := by
  have named : landmarkKindOfNat m.carried.kind = some m.kind := by
    obtain ⟨distance, kind, loss, height⟩ := m
    cases kind <;> rfl
  rw [CarriedMark.landmark?, named]
  exact if_neg (Nat.not_lt.mpr near)

section MapM

variable {α β : Type} {f : α → Option β}

theorem mapM_eq_none_of_mem {l : List α} {a : α} (mem : a ∈ l) (fails : f a = none) : l.mapM f = none := by
  induction l with
  | nil => cases mem
  | cons b rest ih =>
    rw [List.mapM_cons]
    rcases List.mem_cons.mp mem with rfl | mem
    · rw [fails]
      rfl
    · rw [ih mem]
      cases f b <;> rfl

theorem mapM_map_eq_some {g : β → α} {l : List β} (reads : ∀ b ∈ l, f (g b) = some b) : (l.map g).mapM f = some l := by
  induction l with
  | nil => rfl
  | cons b rest ih =>
    rw [List.map_cons, List.mapM_cons, reads b List.mem_cons_self, ih fun c hc => reads c (List.mem_cons_of_mem _ hc)]
    rfl

end MapM

/-! ### The refusals of entries (R32 steps 6 to 8) -/

section Entries

variable {s : State} {r : SpanRecord} {marks : List Landmark} (ordered : InOrder r.landmarks)
include ordered

theorem refusesMarks_of_order (disordered : ¬ InOrder (r.landmarks ++ marks)) : s.refusesMarks r marks = some .badOrder :=
  if_pos (Bool.eq_false_of_not_eq_true (mt (mayFollow_iff ordered marks).mp disordered))

variable (follows : InOrder (r.landmarks ++ marks))
include follows

theorem refusesMarks_of_length (long : 32 < r.landmarks.length + marks.length) : s.refusesMarks r marks = some .listFull := by
  simp [State.refusesMarks, (mayFollow_iff ordered marks).mpr follows, long]

variable (short : r.landmarks.length + marks.length ≤ 32)
include short

theorem refusesMarks_of_pool (any : 1 ≤ marks.length)
    (full : 2048 < (s.spans.map (fun q => q.landmarks.length)).sum + marks.length) : s.refusesMarks r marks = some .poolFull := by
  have free : s.poolFree < marks.length := by
    change 2048 - (s.spans.map (fun q => q.landmarks.length)).sum < marks.length
    omega
  simp [State.refusesMarks, (mayFollow_iff ordered marks).mpr follows, Nat.not_lt.mpr short, free]

theorem refusesMarks_of_room (room : (s.spans.map (fun q => q.landmarks.length)).sum + marks.length ≤ 2048) :
    s.refusesMarks r marks = none := by
  have free : marks.length ≤ s.poolFree := by
    change marks.length ≤ 2048 - (s.spans.map (fun q => q.landmarks.length)).sum
    omega
  simp [State.refusesMarks, (mayFollow_iff ordered marks).mpr follows, Nat.not_lt.mpr short, free]

end Entries

theorem appendMarks_of_refused {s : State} {r : SpanRecord} {marks : List Landmark} {status : Status}
    (refused : s.refusesMarks r marks = some status) : appendMarks s r marks = (s, Reply.refusal status) := by
  rw [appendMarks, refused]

theorem appendMarks_of_taken {s : State} {r : SpanRecord} {marks : List Landmark} (taken : s.refusesMarks r marks = none) :
    appendMarks s r marks =
      (s.modifySpan r.id (fun _ => r.withList (r.landmarks ++ marks.map shapeLandmark)),
        { status := takenStatus (marks.map shapeLandmark != marks)
          body := listStateBytes (r.withList (r.landmarks ++ marks.map shapeLandmark)) }) := by
  rw [appendMarks, taken]

/-! ### The act on a body of identifier, count and entries (R32 steps 1 to 5) -/

theorem actMarks_of_malformed {id count : Nat} {entries : List Byte} (s : State)
    (malformed : id = 0 ∨ count = 0 ∨ 16 < count ∨ entries.length ≠ 9 * count) :
    actMarks id count entries s = (s, Reply.refusal .badField) := if_pos malformed

section Act

variable {id count : Nat} {entries : List Byte} {s : State}
  (formed : ¬(id = 0 ∨ count = 0 ∨ 16 < count ∨ entries.length ≠ 9 * count))
include formed

theorem actMarks_of_none (unheld : s.findSpan id = none) : actMarks id count entries s = (s, Reply.refusal .notFound) := by
  rw [actMarks, if_neg formed, unheld]

variable {r : SpanRecord} (found : s.findSpan id = some r)
include found

theorem actMarks_of_state (state : r.state = .learning ∨ r.state = .active ∨ r.state = .retiring) :
    actMarks id count entries s = (s, Reply.refusal .wrongState) := by
  simp only [actMarks, if_neg formed, found, (listMayChange_eq_false_iff _).mpr state, if_true]

variable (state : r.state = .draft ∨ r.state = .held)
include state

theorem actMarks_of_unreadable (unreadable : (carriedMarks entries).mapM CarriedMark.landmark? = none) :
    actMarks id count entries s = (s, Reply.refusal .badField) := by
  simp only [actMarks, if_neg formed, found, (listMayChange_eq_true_iff _).mpr state, unreadable, Bool.true_eq_false, if_false]

theorem actMarks_of_read {marks : List Landmark} (read : (carriedMarks entries).mapM CarriedMark.landmark? = some marks) :
    actMarks id count entries s = appendMarks s r marks := by
  simp only [actMarks, if_neg formed, found, (listMayChange_eq_true_iff _).mpr state, read, Bool.true_eq_false, if_false]

end Act

/-! ### The body of a list of entries -/

/-- The act on the body that carries these entries. -/
theorem actMarksAppend_marksBody (id : U16) {marks : List Landmark} (carriable : Carriable marks) (s : State) :
    actMarksAppend (marksBody id marks) s = actMarks id.toNat marks.length (marks.flatMap landmarkBytes) s := by
  have count : (byte marks.length).toNat = marks.length := by
    rw [byte_toNat]
    exact Nat.mod_eq_of_lt (Nat.lt_of_le_of_lt carriable.count.2 (by decide))
  have acts : actMarksAppend (marksBody id marks) s =
      actMarks (join16 (byte (id.toNat / 256)) (byte id.toNat)).toNat (byte marks.length).toNat
        (marks.flatMap landmarkBytes) s := rfl
  rw [acts, join16_split16, count]

theorem formed_of_carriable {id : Nat} {marks : List Landmark} (nonzero : id ≠ 0) (carriable : Carriable marks) :
    ¬(id = 0 ∨ marks.length = 0 ∨ 16 < marks.length ∨ (marks.flatMap landmarkBytes).length ≠ 9 * marks.length) := by
  obtain ⟨lower, upper⟩ := carriable.count
  rw [length_flatMap_landmarkBytes]
  omega

section Read

variable {marks : List Landmark} (carriable : Carriable marks)
include carriable

theorem read_of_near (near : ∀ m ∈ marks, m.distance ≤ 12000000) :
    (carriedMarks (marks.flatMap landmarkBytes)).mapM CarriedMark.landmark? = some marks := by
  rw [carriedMarks_landmarkBytes carriable.widths]
  exact mapM_map_eq_some fun m hm => landmark?_carried (near m hm)

theorem unreadable_of_far (far : ∃ m ∈ marks, 12000000 < m.distance) :
    (carriedMarks (marks.flatMap landmarkBytes)).mapM CarriedMark.landmark? = none := by
  obtain ⟨m, hm, far⟩ := far
  rw [carriedMarks_landmarkBytes carriable.widths]
  exact mapM_eq_none_of_mem (List.mem_map_of_mem hm) (landmark?_of_far (m := m.carried) far)

end Read

/-! ### The answers -/

section Held

variable {id : U16} {marks : List Landmark} {r : SpanRecord} {s : State} (ready : s.ready = true) (law : DirectoryLaw s)
  (hr : r ∈ s.spans) (holds : r.id = id.toNat) (carriable : Carriable marks) (state : r.state = .draft ∨ r.state = .held)
include law hr holds carriable state

/-- A body of readable entries for a span whose list may change comes down to the joining of the entries. -/
theorem actMarksAppend_of_held (near : ∀ m ∈ marks, m.distance ≤ 12000000) :
    actMarksAppend (marksBody id marks) s.discardPending = appendMarks s.discardPending r marks := by
  have found : s.discardPending.findSpan id.toNat = some r := findSpan_of_held law hr holds
  rw [actMarksAppend_marksBody id carriable,
    actMarks_of_read (formed_of_carriable (nonzero_of_held law hr holds) carriable) found state (read_of_near carriable near)]

include ready

theorem marksAppend_refused (near : ∀ m ∈ marks, m.distance ≤ 12000000) {status : Status}
    (refused : s.discardPending.refusesMarks r marks = some status) : TurnsAway (.marksAppend (marksBody id marks)) s status :=
  turnsAway_of_act ready rfl
    ((actMarksAppend_of_held law hr holds carriable state near).trans (appendMarks_of_refused refused))

end Held

theorem shapeLandmark_eq_storedMark (m : Landmark) : shapeLandmark m = storedMark m := by
  obtain ⟨distance, kind, loss, height⟩ := m
  cases kind <;> rfl

theorem ListLaw.inOrder {l : List Landmark} (law : ListLaw l) : InOrder l := law.ordered

end Sys2Proof.Machine

namespace Sys2Proof

open Machine in
/-- Settles O28: the entries as they are stored, at the tail of the list. -/
theorem marksAppendJoinsTheTail : Obligations.MarksAppendJoinsTheTail := by
  intro id marks r s ready law hr holds carriable state near follows short room
  have ordered : InOrder r.landmarks := (List.pairwise_append.mp follows).1
  have acts := (actMarksAppend_of_held law hr holds carriable state near).trans
    (appendMarks_of_taken (refusesMarks_of_room (s := s.discardPending) ordered follows short room))
  have stored : marks.map shapeLandmark = marks.map storedMark := List.map_congr_left fun m _ => shapeLandmark_eq_storedMark m
  have status : takenStatus (marks.map storedMark != marks) = if marks.map storedMark = marks then .ok else .clamped := by
    by_cases same : marks.map storedMark = marks <;> simp [takenStatus, same]
  have body : listStateBytes (r.withList (r.landmarks ++ marks.map storedMark)) =
      be16 r.id ++ [byte (r.landmarks.length + marks.length)] ++ be16 ((r.revision + 1) % 65536) := by
    simp only [listStateBytes, SpanRecord.withList, List.length_append, List.length_map]
    rfl
  rw [stored, status, body] at acts
  obtain ⟨runs, answered, keeps⟩ := exec_of_act (i := .marksAppend (marksBody id marks)) ready rfl acts (modifySpan_frame ..)
    (by decide)
  have becomes : SpanBecomes r.id (fun q => { q with
      landmarks := q.landmarks ++ marks.map storedMark, revision := (q.revision + 1) % 65536, mark := true }) s
      (s.modifySpan r.id (fun _ => r.withList (r.landmarks ++ marks.map storedMark))) :=
    (spanBecomes_withList law hr _).congr_fun fun q hq same => by
      rw [eq_of_id_eq law hq hr same]
      rfl
  exact ⟨_, runs, answered, keeps, becomes.congr_right rfl⟩

open Machine in
/-- Settles O29, in the order of R32: the form of the body, the span named, its state, the entries one by one, and last what the
list and the pool hold. -/
theorem marksAppendRefusalsGoInOrder : Obligations.MarksAppendRefusalsGoInOrder := by
  intro s ready law
  refine ⟨fun body short => turnsAway_of_act ready rfl ?short, fun hi lo count entries malformed => turnsAway_of_act ready rfl ?malformed,
    fun hi lo count entries nonzero lower upper length => ?bytes, fun id marks nonzero carriable => ?marks⟩
  case short =>
    match body, short with
    | [], _ | [_], _ | [_, _], _ => rfl
  case malformed =>
    rw [← join16_toNat] at malformed
    exact actMarks_of_malformed _ malformed
  case bytes =>
    rw [← join16_toNat] at nonzero ⊢
    have formed : ¬((join16 hi lo).toNat = 0 ∨ count.toNat = 0 ∨ 16 < count.toNat ∨ entries.length ≠ 9 * count.toNat) := by
      omega
    refine ⟨fun unheld => turnsAway_of_act ready rfl (actMarks_of_none (s := s.discardPending) formed (findSpan_eq_none unheld)),
      fun r hr holds => ?_⟩
    have found : s.discardPending.findSpan (join16 hi lo).toNat = some r := findSpan_of_held law hr holds
    refine ⟨fun state => turnsAway_of_act ready rfl (actMarks_of_state formed found state), ?_⟩
    rintro state ⟨k, kind, within, here, unnamed⟩
    obtain ⟨m, mem, names⟩ := exists_carried_of_kind length within here
    exact turnsAway_of_act ready rfl (actMarks_of_unreadable formed found state
      (mapM_eq_none_of_mem mem (landmark?_of_kind (names ▸ unnamed))))
  case marks =>
    have formed := formed_of_carriable nonzero carriable
    have turns {status : Status}
        (acts : actMarks id.toNat marks.length (marks.flatMap landmarkBytes) s.discardPending =
          (s.discardPending, Reply.refusal status)) : TurnsAway (.marksAppend (marksBody id marks)) s status :=
      turnsAway_of_act ready rfl ((actMarksAppend_marksBody id carriable _).trans acts)
    refine ⟨fun unheld => turns (actMarks_of_none (s := s.discardPending) formed (findSpan_eq_none unheld)), fun r hr holds => ?_⟩
    have found : s.discardPending.findSpan id.toNat = some r := findSpan_of_held law hr holds
    refine ⟨fun state => turns (actMarks_of_state formed found state), fun state =>
      ⟨fun far => turns (actMarks_of_unreadable formed found state (unreadable_of_far carriable far)), fun near list => ?_⟩⟩
    have refused {status : Status} := marksAppend_refused (status := status) ready law hr holds carriable state near
    exact ⟨fun disordered => refused (refusesMarks_of_order list.inOrder disordered),
      fun follows => ⟨fun long => refused (refusesMarks_of_length list.inOrder follows long),
        fun short full => refused (refusesMarks_of_pool (s := s.discardPending) list.inOrder follows short carriable.count.1 full)⟩⟩

end Sys2Proof
end

section
/-! PROOFS. The condition requests COND_ACK and COND_RETIRE (R156, R157), the settings of severity, guard and classes (R73, R143,
R173), and BANK_RESTORE (R68); O34, O35 and O38. -/

namespace Sys2Proof.Machine

/-! ### COND_ACK and COND_RETIRE (R156, R157) -/

section Act

variable {tag : U16} {s : State}

theorem actCondAck_of_zero (zero : tag.toNat = 0) : actCondAck tag s = (s, Reply.refusal .badField) := if_pos zero

theorem actCondRetire_of_zero (zero : tag.toNat = 0) : actCondRetire tag s = (s, Reply.refusal .badField) := if_pos zero

variable (nonzero : tag.toNat ≠ 0)
include nonzero

theorem actCondAck_of_none (unheld : s.findCondition tag.toNat = none) :
    actCondAck tag s = (s, Reply.refusal .notFound) := by
  rw [actCondAck, if_neg nonzero, unheld]

theorem actCondRetire_of_none (unheld : s.findCondition tag.toNat = none) :
    actCondRetire tag s = (s, Reply.refusal .notFound) := by
  rw [actCondRetire, if_neg nonzero, unheld]

variable {c : Condition} (found : s.findCondition tag.toNat = some c)
include found

theorem actCondAck_of_retired (retired : c.state = .retired) : actCondAck tag s = (s, Reply.refusal .wrongState) := by
  simp only [actCondAck, if_neg nonzero, found, retired, if_true]

theorem actCondAck_of_taken (notRetired : c.state ≠ .retired) :
    actCondAck tag s = (s.acknowledge tag.toNat, { status := .ok, body := [] }) := by
  simp only [actCondAck, if_neg nonzero, found, if_neg notRetired]

theorem actCondRetire_of_found : actCondRetire tag s = (s.freeCondition tag.toNat, { status := .ok, body := [] }) := by
  simp only [actCondRetire, if_neg nonzero, found]

end Act

/-! ### SEVERITY_SET (R143) -/

theorem stored_carriedSeverity (b : SeverityFields) :
    (carriedSeverity b).stored =
      { forBreak := min 3 b.forBreak.toNat, forBend := min 3 b.forBend.toNat, forLoss := min 3 b.forLoss.toNat
        forDrift := min 3 b.forDrift.toNat, forReflection := min 3 b.forReflection.toNat } := by
  simp only [SeverityMap.stored, carriedSeverity, Nat.min_comm]

theorem stored_carriedSeverity_eq_iff (b : SeverityFields) :
    (carriedSeverity b).stored = carriedSeverity b ↔ b.forBreak.toNat ≤ 3 ∧ b.forBend.toNat ≤ 3 ∧ b.forLoss.toNat ≤ 3 ∧
      b.forDrift.toNat ≤ 3 ∧ b.forReflection.toNat ≤ 3 := by
  simp [SeverityMap.stored, carriedSeverity]

theorem actSeveritySet_eq (b : SeverityFields) (s : State) :
    actSeveritySet b s =
      ({ s with table := { s.table with severity := (carriedSeverity b).stored } },
        { status := if b.forBreak.toNat ≤ 3 ∧ b.forBend.toNat ≤ 3 ∧ b.forLoss.toNat ≤ 3 ∧ b.forDrift.toNat ≤ 3 ∧
            b.forReflection.toNat ≤ 3 then .ok else .clamped
          body := severityBytes (carriedSeverity b).stored }) := by
  simp only [actSeveritySet, takenStatus_bne, stored_carriedSeverity_eq_iff]

/-! ### CLASS_SET (R173) -/

theorem actClassSet_of_outside {cls preemptible : Byte} (weight : Byte) (s : State)
    (outside : 3 < cls.toNat ∨ 1 < preemptible.toNat) :
    actClassSet cls weight preemptible s = (s, Reply.refusal .badField) := by
  rw [actClassSet]
  rcases outside with cls | preemptible
  · rw [finOfNat_of_le cls]
  · rw [boolOfByte_of_gt preemptible]
    split
    next named => cases named
    next => rfl

/-- The class setting that a CLASS_SET stores. -/
def storedClass (weight preemptible : Byte) : ClassSetting :=
  { weight := min 15 weight.toNat, preemptible := preemptible == 1, credit := min 15 weight.toNat }

theorem actClassSet_of_named {cls weight preemptible : Byte} {c : Fin 4} (s : State) (names : c.val = cls.toNat)
    (onOff : preemptible.toNat ≤ 1) :
    actClassSet cls weight preemptible s =
      (({ s with sched := { s.sched with classes := s.sched.classes.set c (storedClass weight preemptible) } } :
          State).callDispatch,
        { status := if weight.toNat ≤ 15 then .ok else .clamped
          body := [cls, byte (min 15 weight.toNat), preemptible, byte (min 15 weight.toNat)] }) := by
  have code : byte c.val = cls := by rw [names, byte_of_toNat]
  have flag : boolByte (preemptible == 1) = preemptible := by
    rcases eq_zero_or_one_of_le onOff with rfl | rfl <;> rfl
  have status : takenStatus (min 15 weight.toNat != weight.toNat) = if weight.toNat ≤ 15 then .ok else .clamped := by
    by_cases within : weight.toNat ≤ 15 <;> simp [takenStatus, within]
  simp only [actClassSet, ← names, finOfNat_val, boolOfByte_of_le onOff, status, classBytes, code, flag, storedClass,
    Nat.min_comm weight.toNat]

/-! ### GUARD_SET (R73) -/

theorem overload_storedThresholds (overload live : Nat) :
    (storedThresholds overload live).overload = max 1000 (min 24082 overload) := clamp_eq_max_min (by decide) _

theorem live_storedThresholds (overload live : Nat) :
    (storedThresholds overload live).live = min (max 1000 (min 24082 live)) (storedThresholds overload live).overload := by
  rw [← clamp_eq_max_min (by decide)]
  rfl

theorem actGuardSet_eq (overload live : U16) (s : State) :
    actGuardSet overload live s =
      ({ s with thresholds := storedThresholds overload.toNat live.toNat },
        { status := if storedThresholds overload.toNat live.toNat = { overload := overload.toNat, live := live.toNat } then .ok
            else .clamped
          body := thresholdBytes (storedThresholds overload.toNat live.toNat) }) := by
  simp only [actGuardSet, takenStatus_bne]

/-! ### BANK_RESTORE (R68) -/

section Act

variable {bank : Byte} (sense : Sense) {s : State}

theorem actBankRestore_of_unnamed (unnamed : bankOfByte bank = none) :
    actBankRestore bank sense s = (s, Reply.refusal .badField) := by
  rw [actBankRestore, unnamed]

variable {l : Letter} (letter : bankOfByte bank = some l)
include letter

theorem actBankRestore_of_absent (absent : s.present l = false) :
    actBankRestore bank sense s = (s, Reply.refusal .bankAbsent) := by
  simp only [actBankRestore, letter, absent, if_true]

variable (present : s.present l = true)
include present

theorem actBankRestore_of_inService (service : (s.banks.get l).service = .inService) :
    actBankRestore bank sense s = (s, Reply.refusal .wrongState) := by
  simp only [actBankRestore, letter, present, service, if_true, Bool.true_eq_false, if_false]

theorem actBankRestore_of_taken (service : (s.banks.get l).service = .outOfService) :
    actBankRestore bank sense s = (s.restoreBank l (senseValue sense), { status := .ok, body := [] }) := by
  simp only [actBankRestore, letter, present, service, Bool.true_eq_false, if_false, reduceCtorEq]

end Act

theorem restoreBank_of_away {s : State} {l : Letter} {sense : Option Nat} (away : (s.banks.get l).commanded ≠ 0) :
    s.restoreBank l sense =
      (s.setBank l { (s.banks.get l).restored with commanded := 0, motion := .moving (s.now + 30000000) }).callDispatch :=
  if_neg away

/-- The bank's record as it settles at position 0, in service where the sense reports that position. -/
def Bank.settledHome (b : Bank) (sense : Option Nat) : Bank :=
  if sense = some 0 then b.restored.settled sense else b.restored.faulted sense

theorem restoreBank_of_home {s : State} {l : Letter} {sense : Option Nat} (home : (s.banks.get l).commanded = 0)
    (free : (s.banks.get l).holder = none) :
    s.restoreBank l sense = (s.setBank l ((s.banks.get l).settledHome sense)).callDispatch := by
  have here : (s.setBank l (s.banks.get l).restored).banks.get l = (s.banks.get l).restored := Pair.get_set_self ..
  have unheld : ((s.setBank l (s.banks.get l).restored).banks.get l).holder = none := by rw [here]; exact free
  have settles : s.restoreBank l sense = ((s.setBank l (s.banks.get l).restored).settle l sense).callDispatch := if_pos home
  have twice (b : Bank) : (s.setBank l (s.banks.get l).restored).setBank l b = s.setBank l b := by
    simp only [State.setBank, Pair.set_set]
  rw [settles, Bank.settledHome]
  split
  next reports =>
    have matched : sense = some ((s.setBank l (s.banks.get l).restored).banks.get l).commanded := by
      rw [here, reports]
      exact congrArg some home.symm
    rw [settle_free_match unheld matched, here, twice]
  next differs =>
    have mismatched : sense ≠ some ((s.setBank l (s.banks.get l).restored).banks.get l).commanded := by
      rw [here]
      exact fun same => differs (same.trans (congrArg some home))
    rw [settle_free_mismatch unheld mismatched, here, twice]

theorem settledHome_eq {b : Bank} (sense : Option Nat) (home : b.commanded = 0) (free : b.holder = none) :
    (b.settledHome sense).coil = b.coil ∧ (b.settledHome sense).holder = none ∧ (b.settledHome sense).commanded = 0 ∧
      (b.settledHome sense).motion = .still ∧ (b.settledHome sense).sensed = sense ∧ (b.settledHome sense).mark = true ∧
      ((b.settledHome sense).service = .inService ↔ sense = some 0) := by
  unfold Bank.settledHome
  split
  next reports => exact ⟨rfl, free, home, rfl, rfl, rfl, fun _ => reports, fun _ => rfl⟩
  next differs =>
    exact ⟨rfl, rfl, home, rfl, rfl, rfl, by rintro ⟨⟩, fun same => absurd same differs⟩

theorem senseValue_eq_zero_iff (sense : Sense) : senseValue sense = some 0 ↔ sense = some 0 := by
  cases sense with
  | none => simp [senseValue]
  | some p =>
    have reads : senseValue (some p) = some p.val := rfl
    rw [reads, Option.some.injEq, Option.some.injEq, Fin.ext_iff, Fin.val_zero]

/-- A restore writes one bank and calls for a dispatch pass. -/
theorem bankRestored_frame (s : State) (l : Letter) (b : Bank) :
    KeepsBut [.banks, .sched] s (s.setBank l b).callDispatch :=
  ((setBank_frame ..).mono (by decide)).trans ((callDispatch_frame _).mono (by decide))

end Sys2Proof.Machine

namespace Sys2Proof

open Machine in
/-- Settles O34, request by request. -/
theorem condAckAndRetire : Obligations.CondAckAndRetire := by
  intro tag s ready law
  refine ⟨fun zero => ⟨turnsAway_of_act ready rfl (actCondAck_of_zero zero), turnsAway_of_act ready rfl (actCondRetire_of_zero zero)⟩,
    fun nonzero unheld => ?unheld, fun c hc holds => ?held⟩
  case unheld =>
    have unheld : s.discardPending.findCondition tag.toNat = none := findCondition_eq_none unheld
    exact ⟨turnsAway_of_act ready rfl (actCondAck_of_none nonzero unheld),
      turnsAway_of_act ready rfl (actCondRetire_of_none nonzero unheld)⟩
  case held =>
    have found : s.discardPending.findCondition tag.toNat = some c := by
      rw [← holds]
      exact findCondition_of_mem law hc
    have nonzero : tag.toNat ≠ 0 := by
      have := (law.range c hc).1
      omega
    refine ⟨fun retired => turnsAway_of_act ready rfl (actCondAck_of_retired nonzero found retired), fun notRetired => ?_, ?_⟩
    · have acts := actCondAck_of_taken nonzero found notRetired
      rw [← holds] at acts
      obtain ⟨runs, answered, keeps⟩ := exec_of_act (i := .condAck tag) (n := 5) (l := [.table]) ready rfl acts
        (keepsBut_of_all fun p => by cases p <;> first | (left; simp; done) | exact .inr rfl) (by decide)
      exact ⟨_, runs, answered, keeps, rfl⟩
    · have acts := actCondRetire_of_found nonzero found
      rw [← holds] at acts
      obtain ⟨runs, answered, keeps⟩ := exec_of_act (i := .condRetire tag) (n := 5) (l := [.table]) ready rfl acts
        (keepsBut_of_all fun p => by cases p <;> first | (left; simp; done) | exact .inr rfl) (by decide)
      exact ⟨_, runs, answered, keeps, rfl⟩

open Machine in
/-- Settles O35, request by request. -/
theorem severityGuardAndClassSettings : Obligations.SeverityGuardAndClassSettings := by
  intro s ready
  refine ⟨fun b => ?severity, fun overload live => ?guard, fun cls weight preemptible =>
    ⟨fun outside => turnsAway_of_act ready rfl (actClassSet_of_outside weight _ outside), fun c names onOff => ?cls⟩⟩
  case severity =>
    obtain ⟨runs, answered, keeps⟩ := exec_of_act (i := .severitySet b) (n := 8) (l := [.table]) ready rfl (actSeveritySet_eq b _)
      (keepsBut_of_all fun p => by cases p <;> first | (left; simp; done) | exact .inr rfl) (by decide)
    exact ⟨_, runs, answered, keeps, congrArg (fun m => { s.table with severity := m }) (stored_carriedSeverity b)⟩
  case guard =>
    obtain ⟨runs, answered, keeps⟩ := exec_of_act (i := .guardSet overload live) (n := 7) ready rfl (actGuardSet_eq overload live _)
      (thresholds_frame ..) (by decide)
    exact ⟨_, runs, answered, keeps, overload_storedThresholds .., live_storedThresholds ..⟩
  case cls =>
    have acts := actClassSet_of_named (weight := weight) s.discardPending names onOff
    obtain ⟨runs, answered, keeps⟩ := exec_of_act (i := .classSet cls weight preemptible) (n := 6) (l := [.sched]) ready rfl acts
      (keepsBut_of_all fun p => by cases p <;> first | (left; simp; done) | exact .inr rfl) (by decide)
    exact ⟨_, _, runs, answered, keeps, rfl, rfl⟩

open Machine in
/-- Settles O38, refusal by refusal, and then by whether the bank stands at position 0. -/
theorem bankRestoreDrivesTheBankHome : Obligations.BankRestoreDrivesTheBankHome := by
  intro bank sense s ready
  refine ⟨fun outside => turnsAway_of_act ready rfl (actBankRestore_of_unnamed sense (bankOfByte_of_gt outside)),
    fun l letter => ⟨fun absent => ?absent, fun present service => ?inService, fun present service free => ?taken⟩⟩
  all_goals have here := discardPending_present s l
  case absent => exact turnsAway_of_act ready rfl (actBankRestore_of_absent sense letter (here.trans absent))
  case inService =>
    exact turnsAway_of_act ready rfl (actBankRestore_of_inService (s := s.discardPending) sense letter (here.trans present) service)
  case taken =>
    have acts := actBankRestore_of_taken (s := s.discardPending) sense letter (here.trans present) service
    by_cases home : (s.banks.get l).commanded = 0
    · rw [restoreBank_of_home (s := s.discardPending) home free] at acts
      obtain ⟨runs, answered, keeps⟩ := exec_of_act (i := .bankRestore bank sense) (n := 4) ready rfl acts
        (bankRestored_frame ..) (by decide)
      refine ⟨_, _, runs, answered, keeps, rfl, rfl, ?_⟩
      obtain ⟨coil, unheld, commanded, motion, sensed, mark, service⟩ := settledHome_eq (senseValue sense) home free
      exact ⟨mark, coil, unheld, commanded, fun away => absurd home away,
        fun _ => ⟨motion, sensed, service.trans (senseValue_eq_zero_iff sense)⟩⟩
    · rw [restoreBank_of_away (s := s.discardPending) home] at acts
      obtain ⟨runs, answered, keeps⟩ := exec_of_act (i := .bankRestore bank sense) (n := 4) ready rfl acts
        (bankRestored_frame ..) (by decide)
      exact ⟨_, _, runs, answered, keeps, rfl, rfl, rfl, rfl, free, rfl, fun _ => ⟨rfl, rfl, rfl⟩, fun same => absurd same home⟩

end Sys2Proof
end

section
/-! PROOFS. The completions of settling and of the guard (R64 to R66, R69 to R71): O43 and O44. -/

namespace Sys2Proof.Machine

/-! ### Settle completion (R64 to R66) -/

theorem exec_settleCompletion_of_moving {s : State} {l : Letter} {due : Nat} (sense : Sense)
    (moving : (s.banks.get l).motion = .moving due) :
    exec (.settleCompletion l sense) s = .next ((s.reach due).settle l (sense.map Fin.val)) := by
  change execSettleCompletion l sense s = _
  rw [execSettleCompletion, moving]
  rfl

theorem Pair.ext_get {α : Type} {p q : Pair α} (h : ∀ l, p.get l = q.get l) : p = q := by
  obtain ⟨a, b⟩ := p
  obtain ⟨c, d⟩ := q
  have first : a = c := h .A
  have second : b = d := h .B
  rw [first, second]

/-- Under the bank law a channel that holds one bank holds no other. -/
theorem BankLaw.unheld {s : State} (law : BankLaw s) {l m ch : Letter} (holds : (s.banks.get l).holder = some ch) (other : m ≠ l) :
    (s.banks.get m).holder ≠ some ch := by
  intro same
  have both : s.banks.a.holder = some ch ∧ s.banks.b.holder = some ch := by
    cases l <;> cases m
    · exact absurd rfl other
    · exact ⟨holds, same⟩
    · exact ⟨same, holds⟩
    · exact absurd rfl other
  rcases law.distinct with free | differ
  · cases free.symm.trans both.1
  · exact differ (both.1.trans both.2.symm)

/-- The bank that faults loses its holder, and the channel held no other one. -/
theorem released_faulted {s : State} (law : BankLaw s) {l ch : Letter} (holds : (s.banks.get l).holder = some ch)
    (sense : Option Nat) :
    (s.banks.set l ((s.banks.get l).faulted sense)).map (Bank.releasedBy ch) =
      s.banks.set l ((s.banks.get l).faulted sense) := by
  refine Pair.ext_get fun m => ?_
  rw [Pair.get_map]
  by_cases same : m = l
  · rw [same, Pair.get_set_self]
    rfl
  · rw [Pair.get_set_ne _ same]
    exact if_neg (law.unheld holds same)

/-! ### Guard completion (R69 to R71) -/

theorem exec_guardCompletion_of_guard {s : State} {ch : Letter} {due : Nat} {f : Flight} (sum : Nat)
    (guards : (s.channels.get ch).activity = .busy (.guard due) f) :
    exec (.guardCompletion ch sum) s = .next ((s.reach due).guardDone ch f (levelOf (sum / 800000))) := by
  change execGuardCompletion ch sum s = _
  rw [execGuardCompletion, guards]
  rfl

section Level

variable {s : State} {ch : Letter} {f : Flight} {level : Nat}

theorem guardDone_of_overload (overload : s.thresholds.overload ≤ level) :
    s.guardDone ch f level = (s.endWithOutcome f.work .liveOverload).dropFlight ch f .idle := if_pos overload

variable (below : level < s.thresholds.overload)
include below

theorem guardDone_of_live (live : s.thresholds.live ≤ level) : s.guardDone ch f level = s.guardLive ch f := by
  rw [State.guardDone, if_neg (Nat.not_le.mpr below), if_pos live]

theorem guardDone_of_clear (clear : level < s.thresholds.live) :
    s.guardDone ch f level = (s.liveGone f.work).startFiring ch f := by
  rw [State.guardDone, if_neg (Nat.not_le.mpr below), if_neg (Nat.not_le.mpr clear)]

end Level

theorem Plan.eq_single {p : Plan} (notDual : p ≠ .dual) : p = .single := by
  cases p with
  | single => rfl
  | dual => exact absurd rfl notDual

/-- A firing stage begins at the channel, whatever the acts before it wrote elsewhere. -/
theorem channels_startFiring {s u : State} (ch : Letter) (f : Flight) (channels : u.channels = s.channels) :
    (u.startFiring ch f).channels = s.channels.set ch { s.channels.get ch with
      activity := .busy (.firing1625 u.now) { f with shotsDone := 0 }
      accumulator := List.replicate f.snapshot.profile.pointCount 0 } := by
  rw [← channels]
  rfl

/-- What a guard level in the live band leaves (R71). -/
structure GuardLive (s t : State) (ch : Letter) (f : Flight) : Prop where
  frame    : KeepsBut [.directory, .sched, .channels, .buffers] s t
  channels : t.channels = s.channels.set ch { s.channels.get ch with
    activity := .busy (.firing1625 s.now) { f with shotsDone := 0, live := true, plan := .single }
    accumulator := List.replicate f.snapshot.profile.pointCount 0 }
  directory : t.directory = (s.liveFound f.work).directory
  sched    : t.sched = { s.sched with dispatchCalled := s.sched.dispatchCalled || f.plan == .dual }
  buffers  : ∀ i : Fin 4, t.buffers.get i = if f.plan = .dual then
    (s.buffers.get i).filter (fun h => !(h.holder == f.work.id && h.role == .nm1310)) else s.buffers.get i

theorem guardLive_guardLive (s : State) (ch : Letter) (f : Flight) : GuardLive s (s.guardLive ch f) ch f := by
  have found := liveFound_frame s f.work
  have channels : (s.liveFound f.work).channels = s.channels := found.same .channels (by decide)
  have sched : (s.liveFound f.work).sched = s.sched := found.same .sched (by decide)
  have buffers : (s.liveFound f.work).buffers = s.buffers := found.same .buffers (by decide)
  have now : (s.liveFound f.work).now = s.now := found.same .now (by decide)
  by_cases dual : f.plan = .dual
  · have live : s.guardLive ch f =
        ((s.liveFound f.work).free1310 f.work.id).startFiring ch { f with live := true, plan := .single } := if_pos dual
    rw [live]
    refine ⟨?_, ?_, rfl, ?_, fun i => ?_⟩
    · exact ((found.mono (by decide)).trans ((free1310_frame ..).mono (by decide))).trans ((setChannel_frame ..).mono (by decide))
    · rw [← now]
      exact channels_startFiring (u := (s.liveFound f.work).free1310 f.work.id) ch _ channels
    · rw [dual, show (Plan.dual == .dual) = true from rfl, Bool.or_true, ← sched]
      rfl
    · rw [if_pos dual, ← buffers, ← buffers_free1310]
      rfl
  · have single : f.plan = .single := Plan.eq_single dual
    have live : s.guardLive ch f = (s.liveFound f.work).startFiring ch { f with live := true } := if_neg dual
    rw [live]
    refine ⟨(found.mono (by decide)).trans ((setChannel_frame ..).mono (by decide)), ?_, rfl, ?_, fun i => ?_⟩
    · rw [← now, ← single]
      exact channels_startFiring ch { f with live := true } channels
    · rw [single]
      change (s.liveFound f.work).sched = _
      rw [sched, show (Plan.single == .dual) = false from rfl, Bool.or_false]
    · rw [if_neg dual, ← buffers]
      rfl

theorem spanBecomes_liveFound {s : State} {kind : TestKind} {id rev : Nat} {w : Work} (work : w = .test kind id rev) :
    SpanBecomes id (fun q => { q with live := true, mark := true }) s (s.liveFound w) := by
  subst work
  exact spanBecomes_modifySpan (f := SpanRecord.setLive true) fun _ h => h

theorem spanBecomes_liveGone {s : State} {kind : TestKind} {id rev : Nat} {w : Work} (work : w = .test kind id rev) :
    SpanBecomes id (fun q => { q with live := false, mark := q.mark || q.live }) s (s.liveGone w) := by
  subst work
  have gone : SpanBecomes id (fun q => if q.live then q.setLive false else q) s (s.liveGone (.test kind id rev)) :=
    spanBecomes_modifySpan fun q h => by split <;> exact h
  refine gone.congr_fun fun q _ _ => ?_
  cases live : q.live with
  | true => simp [SpanRecord.setLive]
  | false =>
    rw [Bool.or_false, if_neg (by decide), ← live]

theorem directory_liveFound_of_verify {s : State} {own : Letter} {coil : Coil} {w : Work} (work : w = .verify own coil) :
    (s.liveFound w).directory = s.directory := by
  subst work
  rfl

theorem directory_liveGone_of_verify {s : State} {own : Letter} {coil : Coil} {w : Work} (work : w = .verify own coil) :
    (s.liveGone w).directory = s.directory := by
  subst work
  rfl

end Sys2Proof.Machine

namespace Sys2Proof

open Machine in
/-- Settles O43, by the holder of the bank and by what the position sense reports. -/
theorem settleCompletionGuardsOrFaults : Obligations.SettleCompletionGuardsOrFaults := by
  intro l sense due s moving
  have runs := exec_settleCompletion_of_moving sense moving
  refine ⟨fun free => ⟨_, runs, ?free⟩, fun ch stage f holds busy => ⟨fun matched => ⟨_, runs, ?matched⟩,
    fun differs law => ⟨_, runs, ?faulted⟩⟩⟩
  case free =>
    by_cases matched : sense.map Fin.val = some (s.banks.get l).commanded
    · rw [settle_free_match (s := s.reach due) free matched]
      exact ⟨((reach_frame ..).mono (by decide)).trans ((setBank_frame ..).mono (by decide)), rfl, fun _ => rfl,
        fun differs => absurd matched differs⟩
    · rw [settle_free_mismatch (s := s.reach due) free matched]
      refine ⟨((reach_frame ..).mono (by decide)).trans ((setBank_frame ..).mono (by decide)), rfl,
        fun same => absurd same matched, fun _ => ?_⟩
      have faulted : (s.banks.get l).faulted (sense.map Fin.val) = { s.banks.get l with
          sensed := sense.map Fin.val, motion := .still, service := .outOfService, mark := true } := by
        rw [Bank.faulted, ← free]
      exact congrArg (s.banks.set l) faulted
  case matched =>
    rw [settle_match (s := s.reach due) holds busy matched]
    exact ⟨(((reach_frame ..).mono (by decide)).trans ((setBank_frame ..).mono (by decide))).trans
      ((setActivity_frame ..).mono (by decide)), rfl, rfl, rfl⟩
  case faulted =>
    obtain ⟨u, isFaulted⟩ : ∃ u, u = (s.reach due).setBank l ((s.banks.get l).faulted (sense.map Fin.val)) := ⟨_, rfl⟩
    have settles : (s.reach due).settle l (sense.map Fin.val) = (u.endWithOutcome f.work .bankFault).dropFlight ch f .idle := by
      rw [isFaulted]
      exact settle_mismatch (s := s.reach due) holds busy differs
    rw [settles]
    have reached : KeepsBut [.now, .banks] s u := by
      rw [isFaulted]
      exact ((reach_frame ..).mono (by decide)).trans ((setBank_frame ..).mono (by decide))
    have ended := ended_endWithOutcome u f.work (o := .bankFault) (by decide) (by decide)
    have endFrame := endWithOutcome_frame u f.work .bankFault
    have before := (reached.mono (m := [.now, .banks, .directory]) (by decide)).trans (endFrame.mono (by decide))
    have gives := givesUp_dropFlight (u.endWithOutcome f.work .bankFault) ch f .idle
    have buffers := before.same .buffers (by decide)
    have channels := before.same .channels (by decide)
    have sched := before.same .sched (by decide)
    have banks := endFrame.same .banks (by decide)
    have now := endFrame.same .now (by decide)
    simp only [Part.Same] at buffers channels sched banks now
    refine ⟨(before.mono (by decide)).trans ((dropFlight_frame ..).mono (by decide)), now.trans (by rw [isFaulted]; rfl), ?_, ?_,
      fun i => ?_, ?_, ?_⟩
    · change (u.endWithOutcome f.work .bankFault).banks.map (Bank.releasedBy ch) = _
      rw [banks, isFaulted]
      exact released_faulted law holds _
    · rw [gives.channels, channels]
    · rw [gives.buffers, buffers]
    · rw [sched_dropFlight, sched]
    · exact ended.congr (reached.same .directory (by decide)).symm (reached.same .timeBase (by decide)).symm rfl

open Machine in
/-- Settles O44, by the band that the guard level lies in. -/
theorem guardCompletionEndsOrFires : Obligations.GuardCompletionEndsOrFires := by
  intro ch due sum f s guards
  have runs := exec_guardCompletion_of_guard sum guards
  have reached := reach_frame s due
  refine ⟨fun overload => ⟨_, runs, ?overload⟩, fun below => ⟨_, runs, ?_⟩⟩
  case overload =>
    rw [guardDone_of_overload (s := s.reach due) overload]
    have endFrame := endWithOutcome_frame (s.reach due) f.work .liveOverload
    have before := (reached.mono (m := [.now, .directory]) (by decide)).trans (endFrame.mono (by decide))
    have ended := ended_endWithOutcome (s.reach due) f.work (o := .liveOverload) (by decide) (by decide)
    have gives := givesUp_dropFlight ((s.reach due).endWithOutcome f.work .liveOverload) ch f .idle
    refine ⟨(before.mono (by decide)).trans ((dropFlight_frame ..).mono (by decide)), endFrame.same .now (by decide), ?_,
      ended.congr rfl rfl rfl, ?_⟩
    · have buffers := before.same .buffers (by decide)
      have channels := before.same .channels (by decide)
      have banks := before.same .banks (by decide)
      simp only [Part.Same] at buffers channels banks
      exact ⟨by rw [gives.channels, channels], fun i => by rw [gives.buffers, buffers], fun l => by rw [gives.banks, banks]⟩
    · rw [sched_dropFlight, endFrame.same .sched (by decide)]
      rfl
  by_cases live : s.thresholds.live ≤ levelOf (sum / 800000)
  · rw [guardDone_of_live (s := s.reach due) below live]
    have fires := guardLive_guardLive (s.reach due) ch f
    have now : ((s.reach due).guardLive ch f).now = max s.now due := fires.frame.same .now (by decide)
    refine ⟨(reached.mono (by decide)).trans (fires.frame.mono (by decide)), now, fun _ => ⟨?_, fun kind id rev work => ?_,
      fun own coil work => ?_, fires.sched, fires.buffers⟩, fun clear => absurd live (Nat.not_le.mpr clear)⟩
    · rw [now]
      exact fires.channels
    · exact ((spanBecomes_liveFound (s := s.reach due) work).congr_left (u := s) rfl).congr_right fires.directory
    · exact fires.directory.trans (directory_liveFound_of_verify work)
  · have clear : levelOf (sum / 800000) < s.thresholds.live := Nat.not_le.mp live
    rw [guardDone_of_clear (s := s.reach due) below clear]
    have gone := liveGone_frame (s.reach due) f.work
    have now : ((s.reach due).liveGone f.work).now = max s.now due := gone.same .now (by decide)
    refine ⟨((reached.mono (by decide)).trans (gone.mono (by decide))).trans ((setChannel_frame ..).mono (by decide)), now,
      fun within => absurd within live, fun _ => ⟨?_, fun kind id rev work => ?_, fun own coil work => ?_, gone.same .buffers (by decide),
        gone.same .sched (by decide)⟩⟩
    · exact channels_startFiring ch f (gone.same .channels (by decide))
    · exact ((spanBecomes_liveGone (s := s.reach due) work).congr_left (u := s) rfl).congr_right rfl
    · exact directory_liveGone_of_verify (s := s.reach due) work

end Sys2Proof
end

section
/-! PROOFS. The shots of an acquisition and its completion (R84 to R87): O45 and O46. -/

namespace Sys2Proof.Machine

/-! ### The accumulator (R85) -/

@[simp] theorem length_groupSums (k n : Nat) (samples : List Nat) : (groupSums k n samples).length = n := by
  induction n generalizing samples with
  | zero => rfl
  | succ n ih => rw [groupSums, List.length_cons, ih]

/-- The sum of group `i` is of the samples from `i * k` on. -/
theorem getElem?_groupSums {k n i : Nat} (samples : List Nat) (within : i < n) :
    (groupSums k n samples)[i]? = some ((samples.drop (i * k)).take k).sum := by
  induction n generalizing samples i with
  | zero => exact absurd within (Nat.not_lt_zero i)
  | succ n ih =>
    rw [groupSums]
    cases i with
    | zero => rw [Nat.zero_mul, List.drop_zero, List.getElem?_cons_zero]
    | succ i => rw [List.getElem?_cons_succ, ih _ (Nat.lt_of_succ_lt_succ within), List.drop_drop, Nat.succ_mul, Nat.add_comm k]

theorem exec_shotAccumulated_of_firing {s : State} {ch : Letter} {stage : Stage} {f : Flight} {since : Nat} {samples : List U16}
    (busy : (s.channels.get ch).activity = .busy stage f) (fires : stage.firingSince = some since)
    (takes : f.takesShot samples = true) :
    exec (.shotAccumulated ch samples) s =
      .next ((s.reach (shotTime f.snapshot since f.shotsDone)).addShot ch stage f samples) := by
  change execShotAccumulated ch samples s = _
  simp only [execShotAccumulated, busy, fires, takes, if_true]

/-! ### The completion of an acquisition (R86, R87) -/

theorem acquired_of_le {f : Flight} (done : f.snapshot.shots ≤ f.shotsDone) : f.acquired = true := decide_eq_true done

section Completion

variable {s : State} {ch : Letter} {f : Flight} {since : Nat} (done : f.snapshot.shots ≤ f.shotsDone)
include done

theorem exec_acquisitionCompletion_of_first (fires : (s.channels.get ch).activity = .busy (.firing1625 since) f) :
    exec (.acquisitionCompletion ch) s = .next ((s.reach (f.acquisitionEnd since)).firstDone ch f) := by
  change execAcquisitionCompletion ch s = _
  simp only [execAcquisitionCompletion, fires, acquired_of_le done, if_true]

theorem exec_acquisitionCompletion_of_second (fires : (s.channels.get ch).activity = .busy (.firing1310 since) f) :
    exec (.acquisitionCompletion ch) s = .next ((s.reach (f.acquisitionEnd since)).secondDone ch f) := by
  change execAcquisitionCompletion ch s = _
  simp only [execAcquisitionCompletion, fires, acquired_of_le done, if_true]

end Completion

theorem firstDone_of_dual {s : State} {ch : Letter} {f : Flight} (dual : f.plan = .dual) :
    s.firstDone ch f = (s.writeTrace ch f .nm1625).startSecond ch f := if_pos dual

theorem firstDone_of_single {s : State} {ch : Letter} {f : Flight} (single : f.plan = .single) :
    s.firstDone ch f = (s.writeTrace ch f .nm1625).handOn ch f := by
  rw [State.firstDone, single]
  rfl

/-- A hand-on reads its channel, the banks, the scheduler and the engine. -/
theorem HandsOn.congr {ch : Letter} {g : Flight} {s u t : State} (h : HandsOn ch g u t)
    (same : KeepsBut [.now, .buffers] s u) : HandsOn ch g s t := by
  have channels := same.same .channels (by decide)
  have banks := same.same .banks (by decide)
  have sched := same.same .sched (by decide)
  have engine := same.same .engine (by decide)
  simp only [Part.Same] at channels banks sched engine
  exact
    { channels := by rw [h.channels, channels]
      recorded := by rw [h.recorded, channels]
      banks := fun l => by rw [h.banks, banks]
      called := by rw [h.called, sched]
      joined := fun current => by rw [h.joined (by rw [engine]; exact current), engine]
      arrived := h.arrived
      taken := fun idle => h.taken (by rw [engine]; exact idle) }

theorem reach_writeTrace_frame (s : State) (due : Nat) (ch : Letter) (f : Flight) (role : Role) :
    KeepsBut [.now, .buffers] s ((s.reach due).writeTrace ch f role) :=
  ((reach_frame ..).mono (by decide)).trans ((fillBuffer_frame ..).mono (by decide))

end Sys2Proof.Machine

namespace Sys2Proof

open Machine in
/-- Settles O45: the sums of a shot are those of its groups of samples. -/
theorem shotsAddToTheAccumulator : Obligations.ShotsAddToTheAccumulator := by
  intro ch since stage f samples s busy fires range length left points
  have since_of : stage.firingSince = some since := by rcases fires with rfl | rfl <;> rfl
  have takes : f.takesShot samples = true := by simp [Flight.takesShot, length, left]
  refine ⟨_, List.zipWith (· + ·) (s.channels.get ch).accumulator
    (groupSums f.snapshot.profile.spacing f.snapshot.profile.pointCount (samples.map BitVec.toNat)),
    exec_shotAccumulated_of_firing busy since_of takes,
    ((reach_frame ..).mono (by decide)).trans ((setChannel_frame ..).mono (by decide)), rfl, rfl, ?_, fun i x here => ?_⟩
  · rw [List.length_zipWith, points, length_groupSums, Nat.min_self]
  · have within : i < f.snapshot.profile.pointCount := points ▸ (List.getElem?_eq_some_iff.mp here).1
    rw [List.getElem?_zipWith, here, getElem?_groupSums _ within, ← List.map_drop, ← List.map_take]

open Machine in
/-- Settles O46, by the wavelength that is complete and by the plan. -/
theorem acquisitionCompletionWritesTheTrace : Obligations.AcquisitionCompletionWritesTheTrace := by
  intro ch since stage role f s busy which done
  have written (i : Fin 4) := buffers_fillBuffer (s.reach (f.acquisitionEnd since)) f.work.id role
    (levelTrace f.snapshot f.shotsDone (s.channels.get ch).accumulator) i
  have before := reach_writeTrace_frame s (f.acquisitionEnd since) ch f role
  have hands := (handsOn_handOn ((s.reach (f.acquisitionEnd since)).writeTrace ch f role) ch f).congr before
  have handFrame := handOn_frame ((s.reach (f.acquisitionEnd since)).writeTrace ch f role) ch f
  rcases which with ⟨rfl, rfl⟩ | ⟨rfl, rfl⟩
  · have runs := exec_acquisitionCompletion_of_first done busy
    by_cases dual : f.plan = .dual
    · rw [firstDone_of_dual dual] at runs
      refine ⟨_, runs, (before.mono (by decide)).trans ((setChannel_frame ..).mono (by decide)), rfl, written,
        fun _ _ => ⟨rfl, rfl, rfl, rfl⟩, ?_⟩
      rintro (⟨⟨⟩⟩ | single)
      cases dual.symm.trans single
    · have single := Plan.eq_single dual
      rw [firstDone_of_single single] at runs
      refine ⟨_, runs, (before.mono (by decide)).trans (handFrame.mono (by decide)), handFrame.same .now (by decide), fun i => ?_,
        fun _ is => absurd is dual, fun _ => hands⟩
      rw [handFrame.same .buffers (by decide)]
      exact written i
  · have runs := exec_acquisitionCompletion_of_second done busy
    refine ⟨_, runs, (before.mono (by decide)).trans (handFrame.mono (by decide)), handFrame.same .now (by decide), fun i => ?_,
      (by rintro ⟨⟩), fun _ => hands⟩
    rw [show ((s.reach (f.acquisitionEnd since)).secondDone ch f).buffers = _ from handFrame.same .buffers (by decide)]
    exact written i

end Sys2Proof
end

section
/-! PROOFS. The choice of a channel's job (R175 to R177), step by step: the verify job, the demand queue, the strict classes, the
weighted classes by credit; O50. -/

namespace Sys2Proof.Machine

/-! ### The four classes in ascending number -/

theorem classNumbers_split (c : Fin 4) : ∃ below above, classNumbers = below ++ c :: above ∧ ∀ k ∈ below, k < c := by
  fin_cases c
  · exact ⟨[], [1, 2, 3], rfl, by decide⟩
  · exact ⟨[0], [2, 3], rfl, by decide⟩
  · exact ⟨[0, 1], [3], rfl, by decide⟩
  · exact ⟨[0, 1, 2], [], rfl, by decide⟩

theorem find?_classNumbers {p : Fin 4 → Bool} {c : Fin 4} (here : p c = true) (below : ∀ k, k < c → p k = false) :
    classNumbers.find? p = some c := by
  obtain ⟨lower, upper, split, less⟩ := classNumbers_split c
  exact List.find?_eq_some_iff_append.mpr ⟨here, lower, upper, split, fun k hk => by rw [below k (less k hk)]; rfl⟩

theorem findSome?_classNumbers {α : Type} {p : Fin 4 → Bool} {f : Fin 4 → Option α} {c : Fin 4} {a : α} (here : p c = true)
    (found : f c = some a) (below : ∀ k, k < c → p k = true → f k = none) : (classNumbers.filter p).findSome? f = some a := by
  obtain ⟨lower, upper, split, less⟩ := classNumbers_split c
  refine List.findSome?_eq_some_iff.mpr ⟨lower.filter p, c, upper.filter p, ?_, found, fun k hk => ?_⟩
  · rw [split, List.filter_append, List.filter_cons_of_pos here]
  · obtain ⟨mem, passes⟩ := List.mem_filter.mp hk
    exact below k (less k mem) passes

/-! ### The choices within a queue -/

variable {s : State} {ch : Letter}

theorem classChoice_of_first {c : Fin 4} {before after : List Nat} {id : Nat}
    (queue : s.sched.classQueues.get c = before ++ id :: after)
    (passed : ∀ i ∈ before, s.eligible ch (.test (.scheduled c) i) = false)
    (eligible : s.eligible ch (.test (.scheduled c) id) = true) : s.classChoice ch c = some (.test (.scheduled c) id) := by
  rw [State.classChoice, queue, List.map_append, List.map_cons]
  refine List.find?_eq_some_iff_append.mpr ⟨eligible, _, _, rfl, fun j hj => ?_⟩
  obtain ⟨i, hi, rfl⟩ := List.mem_map.mp hj
  rw [passed i hi]
  rfl

theorem classChoice_eq_none {c : Fin 4}
    (ineligible : ∀ i ∈ s.sched.classQueues.get c, s.eligible ch (.test (.scheduled c) i) = false) :
    s.classChoice ch c = none := by
  refine List.find?_eq_none.mpr fun j hj => ?_
  obtain ⟨i, hi, rfl⟩ := List.mem_map.mp hj
  rw [ineligible i hi]
  decide

theorem verifyChoice_of_eligible (queued : s.sched.verifyPlaces.get ch = true) (eligible : s.eligible ch (.verify ch) = true) :
    s.verifyChoice ch = some (.verify ch) := by
  rw [State.verifyChoice, queued, eligible]
  rfl

theorem verifyChoice_eq_none (noVerify : s.sched.verifyPlaces.get ch = false ∨ s.eligible ch (.verify ch) = false) :
    s.verifyChoice ch = none := by
  rcases noVerify with absent | ineligible
  · rw [State.verifyChoice, absent]
    rfl
  · rw [State.verifyChoice, ineligible, Bool.and_false]
    rfl

theorem demandChoice_of_first {before after : List DemandJob} {d : DemandJob} (queue : s.sched.demandQueue = before ++ d :: after)
    (passed : ∀ e ∈ before, s.eligible ch e.job = false) (eligible : s.eligible ch d.job = true) :
    s.demandChoice ch = some d.job := by
  rw [State.demandChoice, queue, List.map_append, List.map_cons]
  refine List.find?_eq_some_iff_append.mpr ⟨eligible, _, _, rfl, fun j hj => ?_⟩
  obtain ⟨e, he, rfl⟩ := List.mem_map.mp hj
  rw [passed e he]
  rfl

theorem demandChoice_eq_none (ineligible : ∀ d ∈ s.sched.demandQueue, s.eligible ch d.job = false) :
    s.demandChoice ch = none := by
  refine List.find?_eq_none.mpr fun j hj => ?_
  obtain ⟨d, hd, rfl⟩ := List.mem_map.mp hj
  rw [ineligible d hd]
  decide

theorem strictChoice_of_first {c : Fin 4} {j : Job} (strict : (s.sched.classes.get c).weight = 0)
    (chosen : s.classChoice ch c = some j)
    (below : ∀ k, k < c → (s.sched.classes.get k).weight = 0 → s.classChoice ch k = none) : s.strictChoice ch = some j :=
  findSome?_classNumbers (decide_eq_true strict) chosen fun k less isStrict => below k less (of_decide_eq_true isStrict)

theorem strictChoice_eq_none (noStrict : ∀ k, (s.sched.classes.get k).weight = 0 → s.classChoice ch k = none) :
    s.strictChoice ch = none :=
  List.findSome?_eq_none_iff.mpr fun k hk => noStrict k (of_decide_eq_true (List.mem_filter.mp hk).2)

/-! ### The choice by its steps (R176) -/

theorem choose_of_first {j : Job} (first : ((s.verifyChoice ch).or (s.demandChoice ch)).or (s.strictChoice ch) = some j) :
    s.choose ch = { sched := s.sched, job := some j } := by
  rw [State.choose, first]

theorem choose_of_weighted (verify : s.verifyChoice ch = none) (demand : s.demandChoice ch = none)
    (strict : s.strictChoice ch = none) : s.choose ch = s.weightedChoice ch := by
  rw [State.choose, verify, demand, strict]
  rfl

/-! ### The weighted classes (R177) -/

theorem weightedClasses_of_none (noClass : ∀ k, s.classChoice ch k = none) : s.weightedClasses ch = [] :=
  List.filter_eq_nil_iff.mpr fun k _ => by rw [noClass k]; simp

theorem find?_weightedClasses (p : Fin 4 → Bool) :
    (s.weightedClasses ch).find? p =
      classNumbers.find? (fun c => (s.sched.classes.get c).weight != 0 && (s.classChoice ch c).isSome && p c) := by
  rw [State.weightedClasses, List.find?_filter]
  congr 1
  funext c
  rw [Bool.eq_iff_iff]
  simp

section Weighted

variable {c : Fin 4} {j : Job} (weighted : (s.sched.classes.get c).weight ≠ 0) (chosen : s.classChoice ch c = some j)
include weighted chosen

theorem weightedChoice_of_credit (credit : 0 < (s.sched.classes.get c).credit)
    (below : ∀ k, k < c → (s.sched.classes.get k).weight ≠ 0 → 0 < (s.sched.classes.get k).credit → s.classChoice ch k = none) :
    s.weightedChoice ch = { sched := s.sched.spend c, job := some j } := by
  have found : (s.weightedClasses ch).find? (fun c => 0 < (s.sched.classes.get c).credit) = some c := by
    rw [find?_weightedClasses]
    refine find?_classNumbers (by simp [weighted, chosen, credit]) fun k less => ?_
    by_contra passes
    simp only [Bool.not_eq_false, Bool.and_eq_true, bne_iff_ne, ne_eq, decide_eq_true_eq] at passes
    obtain ⟨⟨weight, some⟩, credit⟩ := passes
    rw [below k less weight credit] at some
    cases some
  simp only [State.weightedChoice, found, chosen]

theorem weightedChoice_of_reload
    (spent : ∀ k, (s.sched.classes.get k).weight ≠ 0 → (s.sched.classes.get k).credit ≠ 0 → s.classChoice ch k = none)
    (below : ∀ k, k < c → (s.sched.classes.get k).weight ≠ 0 → s.classChoice ch k = none) :
    s.weightedChoice ch = { sched := s.sched.reload.spend c, job := some j } := by
  have credits : (s.weightedClasses ch).find? (fun c => 0 < (s.sched.classes.get c).credit) = none := by
    rw [find?_weightedClasses]
    refine List.find?_eq_none.mpr fun k _ passes => ?_
    simp only [Bool.and_eq_true, bne_iff_ne, ne_eq, decide_eq_true_eq] at passes
    obtain ⟨⟨weight, some⟩, credit⟩ := passes
    rw [spent k weight (Nat.ne_of_gt credit)] at some
    cases some
  have first : (s.weightedClasses ch).head? = some c := by
    rw [State.weightedClasses, List.head?_filter]
    refine find?_classNumbers (by simp [weighted, chosen]) fun k less => ?_
    by_contra passes
    simp only [Bool.not_eq_false, Bool.and_eq_true, bne_iff_ne, ne_eq] at passes
    obtain ⟨weight, some⟩ := passes
    rw [below k less weight] at some
    cases some
  obtain ⟨rest, classes⟩ := List.head?_eq_some_iff.mp first
  rw [classes] at credits
  simp only [State.weightedChoice, classes, credits, chosen]

end Weighted

theorem credit_reload_spend_self (q : Scheduler) (c : Fin 4) :
    ((q.reload.spend c).classes.get c).credit = (q.classes.get c).weight - 1 := by
  simp [Scheduler.spend, Scheduler.reload]

theorem credit_reload_spend_ne (q : Scheduler) {c k : Fin 4} (other : k ≠ c) :
    ((q.reload.spend c).classes.get k).credit = (q.classes.get k).weight := by
  simp [Scheduler.spend, Scheduler.reload, Quad.get_set_ne _ other]

end Sys2Proof.Machine

namespace Sys2Proof

open Machine in
/-- Settles O50, step by step of R176. -/
theorem choiceGoesVerifyDemandStrictWeighted : Obligations.ChoiceGoesVerifyDemandStrictWeighted := by
  intro s ch
  refine ⟨eligible_iff s ch, fun queued eligible => choose_of_first ?verify, fun noVerify =>
    ⟨fun before d after queue passed eligible => choose_of_first ?demand, fun noDemand =>
      ⟨fun c before id after strict queue passed eligible below => choose_of_first ?strict,
        fun noStrict c before id after weighted queue passed eligible => ?weighted⟩,
      fun noDemand noClass => ?nothing⟩⟩
  case verify => rw [verifyChoice_of_eligible queued eligible]; rfl
  case demand => rw [verifyChoice_eq_none noVerify, demandChoice_of_first queue passed eligible]; rfl
  case strict =>
    rw [verifyChoice_eq_none noVerify, demandChoice_eq_none noDemand,
      strictChoice_of_first strict (classChoice_of_first queue passed eligible)
        fun k less isStrict => classChoice_eq_none (below k less isStrict)]
    rfl
  case weighted =>
    have chosen := classChoice_of_first queue passed eligible
    rw [choose_of_weighted (verifyChoice_eq_none noVerify) (demandChoice_eq_none noDemand)
      (strictChoice_eq_none fun k isStrict => classChoice_eq_none (noStrict k isStrict))]
    refine ⟨fun credit below => ⟨_, weightedChoice_of_credit weighted chosen credit fun k less weight credit =>
        classChoice_eq_none (below k less weight credit), rfl⟩,
      fun spent below => ⟨_, weightedChoice_of_reload weighted chosen
        (fun k weight credit => classChoice_eq_none (spent k weight credit))
        (fun k less weight => classChoice_eq_none (below k less weight)), credit_reload_spend_self .., fun k other =>
          credit_reload_spend_ne _ other⟩⟩
  case nothing =>
    have noChoice (k : Fin 4) : s.classChoice ch k = none := classChoice_eq_none (noClass k)
    rw [choose_of_weighted (verifyChoice_eq_none noVerify) (demandChoice_eq_none noDemand)
      (strictChoice_eq_none fun k _ => noChoice k), State.weightedChoice, weightedClasses_of_none noChoice]
    rfl

end Sys2Proof
end

section
/-! PROOFS. What a dispatch pass leaves standing (R174, R176, R180): the channel that a dispatch does not take, the credits that a
choice does not spend, and a pass with nothing to do; O48. -/

namespace Sys2Proof.Machine

/-! ### The choice does not read the call that the pass answers -/

theorem weightedChoice_answered (s : State) (ch : Letter) (b : Bool) :
    ({ s with sched := { s.sched with dispatchCalled := b } } : State).weightedChoice ch =
      { sched := { (s.weightedChoice ch).sched with dispatchCalled := b }, job := (s.weightedChoice ch).job } := by
  obtain ⟨u, isAnswered⟩ : ∃ u : State, u = { s with sched := { s.sched with dispatchCalled := b } } := ⟨_, rfl⟩
  have classes : u.weightedClasses ch = s.weightedClasses ch := by rw [isAnswered]; rfl
  have credits : u.sched.classes = s.sched.classes := by rw [isAnswered]
  have choice (c : Fin 4) : u.classChoice ch c = s.classChoice ch c := by rw [isAnswered]; rfl
  rw [← isAnswered]
  simp only [State.weightedChoice, classes, credits, choice]
  split
  · rw [isAnswered]; rfl
  · split
    · rw [isAnswered]; rfl
    · rw [isAnswered]

theorem choose_answered (s : State) (ch : Letter) (b : Bool) :
    ({ s with sched := { s.sched with dispatchCalled := b } } : State).choose ch =
      { sched := { (s.choose ch).sched with dispatchCalled := b }, job := (s.choose ch).job } := by
  cases first : ((s.verifyChoice ch).or (s.demandChoice ch)).or (s.strictChoice ch) with
  | some j => rw [choose_of_first first, choose_of_first (s := { s with sched := { s.sched with dispatchCalled := b } }) first]
  | none =>
    have weighted (u : State) (none : ((u.verifyChoice ch).or (u.demandChoice ch)).or (u.strictChoice ch) = none) :
        u.choose ch = u.weightedChoice ch := by rw [State.choose, none]
    rw [weighted s first, weighted { s with sched := { s.sched with dispatchCalled := b } } first, weightedChoice_answered]

/-- A choice spends and reloads credits; what else a class is set to stands. -/
theorem preemptible_choose (s : State) (ch : Letter) (c : Fin 4) :
    ((s.choose ch).sched.classes.get c).preemptible = (s.sched.classes.get c).preemptible := by
  have spend (q : Scheduler) (k : Fin 4) : ((q.spend k).classes.get c).preemptible = (q.classes.get c).preemptible := by
    by_cases same : c = k
    · simp [Scheduler.spend, same]
    · simp [Scheduler.spend, Quad.get_set_ne _ same]
  have reload (q : Scheduler) : ((q.reload).classes.get c).preemptible = (q.classes.get c).preemptible := by
    simp [Scheduler.reload]
  unfold State.choose State.weightedChoice
  split
  · rfl
  dsimp only
  split
  · rw [spend]
  split
  · rw [spend, reload]
  · rfl

/-! ### The channel that a dispatch takes -/

section Dispatch

variable {senses : Letter → Option Nat} {ch : Letter} {j : Job} {l : Letter} {position : Nat} {s t : State}

theorem DispatchesTo.exists_channel (h : DispatchesTo senses ch j l position s t) : ∃ c, t.channels = s.channels.set ch c := by
  by_cases still : (s.banks.get l).motion = .still
  · by_cases here : (s.banks.get l).commanded = position
    · by_cases reports : senses l = some position
      · obtain ⟨f, -, channels, -⟩ := h.matched still here reports
        exact ⟨_, channels⟩
      · obtain ⟨f, -, -, -, channels, -⟩ := h.faulted still here reports
        exact ⟨_, channels⟩
    · obtain ⟨f, -, channels, -⟩ := h.away (.inr here)
      exact ⟨_, channels⟩
  · obtain ⟨f, -, channels, -⟩ := h.away (.inl still)
    exact ⟨_, channels⟩

theorem DispatchesTo.channel_ne (h : DispatchesTo senses ch j l position s t) {other : Letter} (differ : other ≠ ch) :
    t.channels.get other = s.channels.get other := by
  obtain ⟨c, channels⟩ := h.exists_channel
  rw [channels, Pair.get_set_ne _ differ]

theorem Considers.channel_ne (h : Considers senses ch s t) {other : Letter} (differ : other ≠ ch) :
    t.channels.get other = s.channels.get other := by
  by_cases idle : (s.channels.get ch).activity = .idle
  · cases chosen : (s.choose ch).job with
    | none => rw [h.stands (.inr chosen)]
    | some j =>
      obtain ⟨l, position, -, dispatches⟩ := h.takes idle j chosen
      exact dispatches.channel_ne differ
  · rw [h.stands (.inl idle)]

theorem Considers.preemptible (h : Considers senses ch s t) (c : Fin 4) :
    (t.sched.classes.get c).preemptible = (s.sched.classes.get c).preemptible := by
  by_cases idle : (s.channels.get ch).activity = .idle
  · cases chosen : (s.choose ch).job with
    | none => rw [h.stands (.inr chosen)]
    | some j =>
      obtain ⟨l, position, -, dispatches⟩ := h.takes idle j chosen
      rw [dispatches.queue.classes]
      exact preemptible_choose s ch c
  · rw [h.stands (.inl idle)]

end Dispatch

/-! ### Pre-emption where no job qualifies -/

/-- Only a SCHEDULED job of a pre-emptible class qualifies as a victim. -/
theorem not_qualifies_of_unyielding {s : State} {ch : Letter} {f : Flight}
    (busy : (s.channels.get ch).activity.flight? = some f)
    (unyielding : ∀ c id rev, f.work = .test (.scheduled c) id rev → (s.sched.classes.get c).preemptible = false)
    {demand : Nat} {g : Flight} {c : Fin 4} {id : Nat} : ¬ Qualifies s demand ch g c id := by
  intro qualifies
  obtain rfl : f = g := Option.some.inj (busy.symm.trans qualifies.runs)
  obtain ⟨rev, work⟩ := qualifies.work
  cases (unyielding c id rev work).symm.trans qualifies.cls

theorem preemptFor_of_none {s : State} {demand : Nat} (senses : Pair (Option Nat)) (none : s.victimFor demand = none) :
    State.preemptFor senses s demand = s := by
  rw [State.preemptFor, none]

theorem preempt_of_nothing {s : State} (senses : Pair (Option Nat))
    (nothing : s.timeBase.windowOpen = false ∨ s.demandSpans = [] ∨ ∀ demand, s.victimFor demand = none) :
    s.preempt senses = s := by
  unfold State.preempt
  rcases nothing with closed | empty | none
  · rw [closed]
    rfl
  · rw [empty]
    exact ite_self _
  · rw [List.foldl_fixed' fun demand => preemptFor_of_none senses (none demand), ite_self]

theorem demandSpans_of_learn {s : State} (learn : ∀ d ∈ s.sched.demandQueue, d.learn = true) : s.demandSpans = [] := by
  have none : s.sched.demandQueue.filter (fun d => !d.learn) = [] :=
    List.filter_eq_nil_iff.mpr fun d hd => by rw [learn d hd]; decide
  rw [State.demandSpans, none]
  rfl

theorem considerChannel_of_nothing {s : State} {ch : Letter} (senses : Pair (Option Nat))
    (nothing : (s.channels.get ch).activity = .idle → (s.choose ch).job = none) : s.considerChannel senses ch = s := by
  refine (considers_considerChannel s senses ch).stands ?_
  by_cases idle : (s.channels.get ch).activity = .idle
  · exact .inr (nothing idle)
  · exact .inl idle

/-! ### A busy channel over a pass -/

/-- The channel is as it was, no class has become pre-emptible, and the window stands. -/
structure Spares (ch : Letter) (s u : State) : Prop where
  channel     : u.channels.get ch = s.channels.get ch
  preemptible : ∀ c : Fin 4, (u.sched.classes.get c).preemptible = (s.sched.classes.get c).preemptible
  timeBase    : u.timeBase = s.timeBase

theorem Spares.considered {ch : Letter} {s u : State} (h : Spares ch s u) {stage : Stage} {f : Flight}
    (busy : (s.channels.get ch).activity = .busy stage f) (senses : Pair (Option Nat)) (other : Letter) :
    Spares ch s (u.considerChannel senses other) := by
  have considers := considers_considerChannel u senses other
  refine ⟨?_, fun c => (considers.preemptible c).trans (h.preemptible c),
    ((considerChannel_frame u senses other).same .timeBase (by decide)).trans h.timeBase⟩
  by_cases same : ch = other
  · subst same
    rw [considers.stands (.inl _), h.channel]
    rw [h.channel, busy]
    rintro ⟨⟩
  · rw [considers.channel_ne same, h.channel]

theorem Spares.preempted {ch : Letter} {s u : State} (h : Spares ch s u) {f : Flight}
    (busy : (s.channels.get ch).activity.flight? = some f)
    (unyielding : ∀ c id rev, f.work = .test (.scheduled c) id rev → (s.sched.classes.get c).preemptible = false)
    (senses : Pair (Option Nat)) (demand : Nat) : Spares ch s (State.preemptFor senses u demand) := by
  have timeBase : (State.preemptFor senses u demand).timeBase = s.timeBase :=
    ((preemptFor_frame senses u demand).same .timeBase (by decide)).trans h.timeBase
  rcases preempts_preemptFor senses u demand with ⟨-, stands⟩ | ⟨at', g, c, id, v, k, l, position, victim, aborts, -, sched, -, takes⟩
  · rw [stands]
    exact h
  · have differ : ch ≠ at' := by
      rintro rfl
      refine not_qualifies_of_unyielding (h.channel.symm ▸ busy) (fun c id rev work => ?_) victim.qualifies
      rw [h.preemptible]
      exact unyielding c id rev work
    refine ⟨?_, fun c => ?_, timeBase⟩
    · rw [takes.channel_ne differ, aborts.givesUp.channels, Pair.get_set_ne _ differ, h.channel]
    · rw [takes.queue.classes, sched]
      exact h.preemptible c

end Sys2Proof.Machine

namespace Sys2Proof

open Machine in
/-- Settles O48: the pass with nothing to do, and the busy channel that no DEMAND job may have. -/
theorem dispatchPassLeavesBusyChannels : Obligations.DispatchPassLeavesBusyChannels := by
  refine ⟨fun a b s nothing noDemand => ?nothing, fun a b s ch stage f busy unyielding => ?busy⟩
  case nothing =>
    obtain ⟨u, isAnswered⟩ : ∃ u : State, u = { s with sched := { s.sched with dispatchCalled := false } } := ⟨_, rfl⟩
    have consider (ch : Letter) : u.considerChannel (senseValues a b) ch = u :=
      considerChannel_of_nothing _ fun idle => by
        rw [isAnswered, choose_answered]
        rw [isAnswered] at idle
        exact nothing ch idle
    have preempt : u.preempt (senseValues a b) = u := by
      rw [isAnswered]
      refine preempt_of_nothing _ ?_
      rcases noDemand with closed | learn | unyielding
      · exact .inl closed
      · exact .inr (.inl (demandSpans_of_learn (s := { s with sched := { s.sched with dispatchCalled := false } }) learn))
      · refine .inr (.inr fun demand => victimFor_eq_none.mpr fun ch f c id qualifies => ?_)
        exact not_qualifies_of_unyielding qualifies.runs (fun c id rev work => unyielding ch f c id rev qualifies.runs work) qualifies
    have pass : s.dispatchPass (senseValues a b) = { u with now := u.now + 1 } := by
      have unfolds : s.dispatchPass (senseValues a b) =
          { ((u.considerChannel (senseValues a b) .A).considerChannel (senseValues a b) .B).preempt (senseValues a b) with
            now := (((u.considerChannel (senseValues a b) .A).considerChannel (senseValues a b) .B).preempt
              (senseValues a b)).now + 1 } := by rw [isAnswered]; rfl
      rw [unfolds, consider, consider, preempt]
    change Host.Outcome.next (s.dispatchPass (senseValues a b)) = _
    rw [pass, isAnswered]
  case busy =>
    refine ⟨_, rfl, ?_, (dispatchPass_frame ..).mono (by decide)⟩
    have spares : Spares ch s (s.dispatchPass (senseValues a b)) := by
      refine dispatchPass_keeps (P := Spares ch s) (fun u h => ⟨h.channel, h.preemptible, h.timeBase⟩)
        (fun u n h => ⟨h.channel, h.preemptible, h.timeBase⟩) (fun u other h => h.considered busy _ other)
        (fun u demand isOpen h => ?_) ⟨rfl, fun _ => rfl, rfl⟩
      rcases unyielding with closed | unyielding
      · rw [h.timeBase, closed] at isOpen
        cases isOpen
      · exact h.preempted (by rw [busy]; rfl) unyielding _ demand
    exact spares.channel

end Sys2Proof
end

section
/-! PROOFS. The job chosen for an idle channel (R174, R178, R63 to R65): what its dispatch leaves, what the channel considered
after it leaves of that, and the whole pass; O49. -/

namespace Sys2Proof.Machine

/-! ### The queues only lose jobs -/

/-- Every job that waits in `t` waits in `s`. -/
structure QueuesWithin (s t : State) : Prop where
  scheduled : ∀ (k : Fin 4) (i : Nat), i ∈ t.sched.classQueues.get k → i ∈ s.sched.classQueues.get k
  demand    : ∀ d ∈ t.sched.demandQueue, d ∈ s.sched.demandQueue
  verify    : ∀ own : Letter, t.sched.verifyPlaces.get own = true → s.sched.verifyPlaces.get own = true

theorem QueuesWithin.of_sched {s t : State} (same : t.sched = s.sched) : QueuesWithin s t :=
  ⟨fun _ _ mem => same ▸ mem, fun _ mem => same ▸ mem, fun _ queued => same ▸ queued⟩

theorem QueueLeft.within {j : Job} {s t : State} (h : QueueLeft j s t) : QueuesWithin s t := by
  have filtered (id : Nat) {k : Fin 4} {i : Nat} {q : Quad (List Nat)} (mem : i ∈ (q.map (fun l => l.filter (fun i => i != id))).get k) :
      i ∈ q.get k := by
    rw [Quad.get_map] at mem
    exact (List.mem_filter.mp mem).1
  have ofDemand (id : Nat) (h : t.sched.demandQueue = s.sched.demandQueue.filter (fun d => d.span != id) ∧
      t.sched.classQueues = s.sched.classQueues ∧ t.sched.verifyPlaces = s.sched.verifyPlaces) : QueuesWithin s t := by
    obtain ⟨demand, classes, verify⟩ := h
    exact ⟨fun k i mem => classes ▸ mem, fun d mem => (List.mem_filter.mp (demand ▸ mem)).1, fun own queued => verify ▸ queued⟩
  cases j with
  | test kind id =>
    cases kind with
    | demand => exact ofDemand id (h.demand id (.inl rfl))
    | learn => exact ofDemand id (h.demand id (.inr rfl))
    | scheduled c =>
      obtain ⟨classes, demand, verify⟩ := h.scheduled c id rfl
      exact ⟨fun k i mem => filtered id (classes ▸ mem), fun d mem => demand ▸ mem, fun own queued => verify ▸ queued⟩
  | verify own =>
    obtain ⟨verify, classes, demand⟩ := h.verify own rfl
    refine ⟨fun k i mem => classes ▸ mem, fun d mem => demand ▸ mem, fun own' queued => ?_⟩
    rw [verify] at queued
    by_cases same : own' = own
    · rw [same, Pair.get_set_self] at queued
      cases queued
    · rwa [Pair.get_set_ne _ same] at queued

theorem Considers.within {senses : Letter → Option Nat} {ch : Letter} {s t : State} (h : Considers senses ch s t) :
    QueuesWithin s t := by
  by_cases idle : (s.channels.get ch).activity = .idle
  · cases chosen : (s.choose ch).job with
    | none =>
      rw [h.stands (.inr chosen)]
      exact ⟨fun _ _ mem => mem, fun _ mem => mem, fun _ queued => queued⟩
    | some j =>
      obtain ⟨l, position, -, dispatches⟩ := h.takes idle j chosen
      obtain ⟨scheduled, demand, verify⟩ := dispatches.queue.within
      have queues : (s.choose ch).sched.classQueues = s.sched.classQueues ∧
          (s.choose ch).sched.demandQueue = s.sched.demandQueue ∧ (s.choose ch).sched.verifyPlaces = s.sched.verifyPlaces := by
        rw [choose_sched s ch]
        exact ⟨rfl, rfl, rfl⟩
      simp only [queues] at scheduled demand verify
      exact ⟨scheduled, demand, verify⟩
  · rw [h.stands (.inl idle)]
    exact ⟨fun _ _ mem => mem, fun _ mem => mem, fun _ queued => queued⟩

theorem leavesItsQueue_of_queueLeft {j : Job} {s t : State} (h : QueueLeft j s t) : LeavesItsQueue j t := by
  refine ⟨fun c id is k mem => ?_, fun id is d mem same => ?_, fun own is => ?_⟩
  · rw [(h.scheduled c id is).1, Quad.get_map] at mem
    simpa using (List.mem_filter.mp mem).2
  · rw [(h.demand id is).1] at mem
    simpa [same] using (List.mem_filter.mp mem).2
  · rw [(h.verify own is).1, Pair.get_set_self]

theorem LeavesItsQueue.within {j : Job} {u v : State} (h : LeavesItsQueue j u) (within : QueuesWithin u v) : LeavesItsQueue j v :=
  ⟨fun c id is k mem => h.scheduled c id is k (within.scheduled k id mem),
    fun id is d mem => h.demand id is d (within.demand d mem),
    fun own is => Bool.eq_false_of_not_eq_true fun queued => by
      cases (h.verify own is).symm.trans (within.verify own queued)⟩

/-! ### What a dispatch leaves of banks and buffers -/

section Dispatch

variable {senses : Letter → Option Nat} {ch : Letter} {j : Job} {l : Letter} {position : Nat} {s t : State}

theorem TakesUp.buffer_held {f : Flight} (h : TakesUp s t ch j f) {i : Fin 4} {held : Holding}
    (here : s.buffers.get i = some held) : t.buffers.get i = some held := by
  obtain ⟨first, second, takes, others⟩ := h.buffers
  have taken {k : Nat} {m : Fin 4} (free : s.FirstFreeFrom k m) : i ≠ m := by
    rintro rfl
    cases here.symm.trans free.2.1
  rw [others i (taken takes.first.1) fun dual => taken (takes.second dual).1, here]

/-- A dispatch frees no buffer of another job. -/
theorem DispatchesTo.buffer_held (h : DispatchesTo senses ch j l position s t) {i : Fin 4} {held : Holding}
    (here : s.buffers.get i = some held) (another : held.holder ≠ j.id) : t.buffers.get i = some held := by
  by_cases still : (s.banks.get l).motion = .still
  · by_cases at' : (s.banks.get l).commanded = position
    · by_cases reports : senses l = some position
      · obtain ⟨f, takes, -⟩ := h.matched still at' reports
        exact takes.buffer_held here
      · obtain ⟨f, -, -, -, -, -, buffers⟩ := h.faulted still at' reports
        rw [buffers, here, Option.filter_some, if_pos (by simpa using another)]
    · obtain ⟨f, takes, -⟩ := h.away (.inr at')
      exact takes.buffer_held here
  · obtain ⟨f, takes, -⟩ := h.away (.inl still)
    exact takes.buffer_held here

/-- A dispatch writes the bank that the job needs, and takes the channel from no other bank but one that it held. -/
theorem DispatchesTo.bank_ne (h : DispatchesTo senses ch j l position s t) {m : Letter} (differ : m ≠ l)
    (unheld : (s.banks.get m).holder ≠ some ch) : t.banks.get m = s.banks.get m := by
  by_cases still : (s.banks.get l).motion = .still
  · by_cases at' : (s.banks.get l).commanded = position
    · by_cases reports : senses l = some position
      · obtain ⟨f, -, -, banks⟩ := h.matched still at' reports
        rw [banks, Pair.get_set_ne _ differ]
      · obtain ⟨f, -, -, -, -, banks, -⟩ := h.faulted still at' reports
        rw [banks, if_neg differ, if_neg unheld]
    · obtain ⟨f, -, -, banks⟩ := h.away (.inr at')
      rw [banks, Pair.get_set_ne _ differ]
  · obtain ⟨f, -, -, banks⟩ := h.away (.inl still)
    rw [banks, Pair.get_set_ne _ differ]

end Dispatch

/-! ### The other channel, considered after a dispatch -/

theorem NeedsPort.unique {s : State} {j : Job} {l m : Letter} {p q : Nat} (h : NeedsPort s j l p) (k : NeedsPort s j m q) :
    l = m ∧ p = q := by
  have same := (portOf_eq_some.mpr h).symm.trans (portOf_eq_some.mpr k)
  exact Prod.mk.inj (Option.some.inj same)

/-- Jobs of one span or one verify place need one bank. -/
theorem NeedsPort.bank_of_id {s : State} {j k : Job} {l m : Letter} {p q : Nat} (h : NeedsPort s j l p) (h' : NeedsPort s k m q)
    (same : j.id = k.id) : l = m := by
  cases j with
  | verify own =>
    cases k with
    | verify own' =>
      cases same
      exact (h.verify own rfl).1.trans (h'.verify own rfl).1.symm
    | test kind id => cases same
  | test kind id =>
    cases k with
    | verify own => cases same
    | test kind' id' =>
      cases same
      obtain ⟨r, found, bank, -⟩ := h.test kind id rfl
      obtain ⟨r', found', bank', -⟩ := h'.test kind' id rfl
      obtain rfl : r = r' := Option.some.inj (found.symm.trans found')
      exact bank.symm.trans bank'

/-- The channel, the bank and the buffers of a job that is under way stand while the other channel is considered. -/
theorem Considers.beside {senses : Letter → Option Nat} {ch other : Letter} {j : Job} {l : Letter} {position : Nat} {u v : State}
    (h : Considers senses other u v) (differ : ch ≠ other) (needs : NeedsPort u j l position)
    (holds : (u.banks.get l).holder = some ch) :
    v.banks.get l = u.banks.get l ∧
      ∀ (i : Fin 4) (held : Holding), u.buffers.get i = some held → held.holder = j.id → v.buffers.get i = some held := by
  by_cases idle : (u.channels.get other).activity = .idle
  · cases chosen : (u.choose other).job with
    | none =>
      rw [h.stands (.inr chosen)]
      exact ⟨rfl, fun _ _ here _ => here⟩
    | some k =>
      obtain ⟨m, p, needs', dispatches⟩ := h.takes idle k chosen
      obtain ⟨m', p', needs'', -, -, unheld⟩ := ((eligible_iff u other k).mp (eligible_of_choose chosen)).bank
      obtain ⟨rfl, -⟩ := needs'.unique needs''
      have another : l ≠ m := by
        rintro rfl
        exact unheld ch differ holds
      refine ⟨dispatches.bank_ne another fun same => differ (Option.some.inj (holds.symm.trans same)),
        fun i held here is => dispatches.buffer_held here ?_⟩
      rw [is]
      exact fun same => another (needs.bank_of_id needs' same)
  · rw [h.stands (.inl idle)]
    exact ⟨rfl, fun _ _ here _ => here⟩

/-! ### The pass in which a job is dispatched -/

/-- The state in which the chosen job is dispatched: the call is answered and the credits are as the choice leaves them. -/
def State.chosen (s : State) (ch : Letter) : State := { s with sched := { (s.choose ch).sched with dispatchCalled := false } }

theorem StartsAs.of_chosen {s : State} {ch : Letter} {j : Job} {f : Flight} (h : StartsAs (s.chosen ch) ch j f) :
    StartsAs s ch j f :=
  ⟨h.time, h.clear, h.id, fun kind id is r hr names law => h.test kind id is r hr names (DirectoryLaw.of_directory (s := s) rfl law), h.verify, h.shots,
    h.rangeBins, h.pulseBins, h.guard, h.period⟩

/-- The pass dispatches the chosen job, considers the other channel after it, and then no DEMAND job. -/
theorem pass_takes {a b : Sense} {ch other : Letter} {j : Job} {l : Letter} {position : Nat} {s : State} (differ : ch ≠ other)
    (idle : (s.channels.get ch).activity = .idle) (first : ch = .A ∨ (s.channels.get other).activity ≠ .idle)
    (chosen : (s.choose ch).job = some j) (port : s.portOf j = some (l, position))
    (quiet : s.timeBase.windowOpen = false ∨ ∀ d ∈ s.sched.demandQueue, d.learn = true) :
    ∃ u v, DispatchesTo (sensesOf a b) ch j l position (s.chosen ch) u ∧ Considers (sensesOf a b) other u v ∧
      ((s.channels.get other).activity ≠ .idle → v = u) ∧ s.dispatchPass (senseValues a b) = { v with now := s.now + 1 } := by
  obtain ⟨s0, isAnswered⟩ : ∃ u : State, u = { s with sched := { s.sched with dispatchCalled := false } } := ⟨_, rfl⟩
  have answered : QueuesWithin s s0 := by
    rw [isAnswered]
    exact ⟨fun _ _ mem => mem, fun _ mem => mem, fun _ queued => queued⟩
  have considers (u : State) (c : Letter) : Considers (sensesOf a b) c u (u.considerChannel (senseValues a b) c) := by
    rw [sensesOf_eq]
    exact considers_considerChannel u _ c
  have dispatches : DispatchesTo (sensesOf a b) ch j l position (s.chosen ch) (s0.considerChannel (senseValues a b) ch) := by
    have chosenHere : (s0.choose ch).job = some j := by rw [isAnswered, choose_answered]; exact chosen
    obtain ⟨m, p, needs, dispatches⟩ := (considers s0 ch).takes (by rw [isAnswered]; exact idle) j chosenHere
    have port0 : s0.portOf j = some (l, position) := by rw [isAnswered]; exact port
    obtain ⟨rfl, rfl⟩ := needs.unique (portOf_eq_some.mp port0)
    have same : ({ s0 with sched := (s0.choose ch).sched } : State) = s.chosen ch := by
      rw [isAnswered, choose_answered]
      rfl
    rwa [same] at dispatches
  have timeBase (u : State) (c : Letter) : (u.considerChannel (senseValues a b) c).timeBase = u.timeBase :=
    (considerChannel_frame ..).same .timeBase (by decide)
  have preempt {v : State} (within : QueuesWithin s v) (standing : v.timeBase = s.timeBase) :
      v.preempt (senseValues a b) = v := by
    refine preempt_of_nothing _ ?_
    rcases quiet with closed | learn
    · exact .inl (by rw [standing, closed])
    · exact .inr (.inl (demandSpans_of_learn fun d hd => learn d (within.demand d hd)))
  have pass : s.dispatchPass (senseValues a b) =
      { ((s0.considerChannel (senseValues a b) .A).considerChannel (senseValues a b) .B).preempt (senseValues a b) with
        now := s.now + 1 } := by
    obtain ⟨u, v, w, -, -, -, is⟩ := passes_dispatchPass s (senseValues a b)
    have now : (s.dispatchPass (senseValues a b)).now = s.now + 1 := by rw [is]
    rw [← now, isAnswered]
    rfl
  have within {u v : State} (h : QueuesWithin s u) (k : QueuesWithin u v) : QueuesWithin s v :=
    ⟨fun c i mem => h.scheduled c i (k.scheduled c i mem), fun d mem => h.demand d (k.demand d mem),
      fun own queued => h.verify own (k.verify own queued)⟩
  have standing0 : s0.timeBase = s.timeBase := by rw [isAnswered]
  refine ⟨s0.considerChannel (senseValues a b) ch, ?_⟩
  cases ch with
  | A =>
    obtain rfl : other = .B := by
      cases other with
      | A => exact absurd rfl differ
      | B => rfl
    refine ⟨_, dispatches, considers _ .B, fun busy => ?_, ?_⟩
    · refine (considers _ .B).stands (.inl ?_)
      rw [dispatches.channel_ne differ.symm]
      exact busy
    · rw [pass, preempt (within (within answered (considers s0 .A).within) (considers _ .B).within)
        ((timeBase _ .B).trans ((timeBase _ .A).trans standing0))]
  | B =>
    obtain rfl : other = .A := by
      cases other with
      | A => rfl
      | B => exact absurd rfl differ
    have busy := first.resolve_left (by decide)
    have passed : s0.considerChannel (senseValues a b) .A = s0 :=
      (considers s0 .A).stands (.inl (by rw [isAnswered]; exact busy))
    have stands : (s0.considerChannel (senseValues a b) .B).considerChannel (senseValues a b) .A =
        s0.considerChannel (senseValues a b) .B := by
      refine (considers _ .A).stands (.inl ?_)
      rw [dispatches.channel_ne differ.symm]
      exact busy
    have after := considers (s0.considerChannel (senseValues a b) .B) .A
    rw [stands] at after
    refine ⟨_, dispatches, after, fun _ => rfl, ?_⟩
    rw [pass, passed, preempt (within answered (considers s0 .B).within) ((timeBase _ .B).trans standing0)]

end Sys2Proof.Machine

namespace Sys2Proof

open Machine in
/-- Settles O49: the dispatch by what the bank is when it is taken, and the whole pass. -/
theorem dispatchTakesTheChosenJob : Obligations.DispatchTakesTheChosenJob := by
  refine ⟨fun a b ch other j l position s differ idle first chosen port quiet => ⟨fun away => ?away, fun still at' busy sense isSense => ?at'⟩,
    fun a b s => ⟨_, rfl, by rw [sensesOf_eq]; exact passes_dispatchPass s _⟩⟩
  all_goals obtain ⟨u, v, dispatches, considers, stands, pass⟩ := pass_takes (a := a) (b := b) differ idle first chosen port quiet
  all_goals have runs : exec (.dispatchPass a b) s = .next (s.dispatchPass (senseValues a b)) := rfl
  all_goals have frame := dispatchPass_frame s (senseValues a b)
  all_goals rw [pass] at runs frame
  case away =>
    obtain ⟨f, takes, channels, banks⟩ := dispatches.away away
    obtain ⟨i, k, buffers, otherBuffers⟩ := takes.buffers
    have needs : NeedsPort u j l position :=
      (portOf_eq_some.mp port).congr takes.directory.symm
    have bank : u.banks.get l = { s.banks.get l with
        holder := some ch, commanded := position
        motion := if (s.banks.get l).commanded = position then (s.banks.get l).motion else .moving (s.now + 30000000) } := by
      rw [banks, Pair.get_set_self]
      rfl
    obtain ⟨standingBank, standingBuffers⟩ := considers.beside differ needs (by rw [bank])
    refine ⟨_, f, i, k, runs, frame.mono (by decide), ?_, takes.starts.of_chosen, ?_,
      ((leavesItsQueue_of_queueLeft dispatches.queue).within considers.within).within (.of_sched rfl), ?_, ?_, fun elsewhere => ?_, fun here => ?_, fun busy => ?_⟩
    · change v.channels.get ch = _
      rw [considers.channel_ne differ, channels, Pair.get_set_self]
      rfl
    · exact ⟨⟨buffers.first.1, standingBuffers i _ buffers.first.2 rfl⟩,
        fun dual => ⟨(buffers.second dual).1, standingBuffers k _ (buffers.second dual).2 rfl⟩⟩
    · change (v.banks.get l).holder = _
      rw [standingBank, bank]
    · change (v.banks.get l).commanded = _
      rw [standingBank, bank]
    · change (v.banks.get l).motion = _
      rw [standingBank, bank, if_neg elsewhere]
    · change (v.banks.get l).motion = _
      rw [standingBank, bank, if_pos here]
    · obtain rfl := stands busy
      exact ⟨dispatches.channel_ne differ.symm, takes.directory, dispatches.queue.classes,
        fun m another => by
          change v.banks.get m = _
          rw [banks, Pair.get_set_ne _ another]
          rfl,
        otherBuffers⟩
  case at' =>
    obtain rfl := stands busy
    have reported : sensesOf a b l = sense.map Fin.val := by
      rw [isSense]
      cases l <;> rfl
    by_cases reports : sensesOf a b l = some position
    · obtain ⟨f, takes, channels, banks⟩ := dispatches.matched still at' reports
      obtain ⟨i, k, buffers, otherBuffers⟩ := takes.buffers
      refine ⟨_, f, runs, frame.mono (by decide), takes.starts.of_chosen,
        (leavesItsQueue_of_queueLeft dispatches.queue).within (.of_sched rfl),
        dispatches.channel_ne differ.symm, dispatches.queue.classes, fun _ => ⟨?_, ?_, fun m another => ?_, takes.directory,
        i, k, ⟨buffers.first, buffers.second⟩, otherBuffers⟩,
        fun differs => absurd (reported.symm.trans reports) differs⟩
      · change v.channels.get ch = _
        rw [channels, Pair.get_set_self]
        rfl
      · change v.banks.get l = _
        rw [banks, Pair.get_set_self]
        rfl
      · change v.banks.get m = _
        rw [banks, Pair.get_set_ne _ another]
        rfl
    · obtain ⟨f, starts, ended, called, channels, banks, buffers⟩ := dispatches.faulted still at' reports
      refine ⟨_, f, runs, frame.mono (by decide), starts.of_chosen,
        (leavesItsQueue_of_queueLeft dispatches.queue).within (.of_sched rfl),
        dispatches.channel_ne differ.symm, dispatches.queue.classes, fun same => absurd (reported.trans same) reports,
        fun _ => ⟨?_, ?_, fun law m another => ?_, ended.congr rfl rfl rfl, called, buffers⟩⟩
      · change v.channels.get ch = _
        rw [channels, Pair.get_set_self]
        rfl
      · change v.banks.get l = _
        rw [banks, if_pos rfl, reported]
        rfl
      · have unheld : (s.banks.get m).holder ≠ some ch := fun holds => by
          have busy := law.busy m ch holds
          rw [idle] at busy
          cases busy
        exact dispatches.bank_ne another unheld

end Sys2Proof
end

section
/-! PROOFS. Pre-emption (R180, R181): the pass in which no channel is idle, and the one job that a DEMAND job takes the place of;
O51. -/

namespace Sys2Proof.Machine

theorem fitted_congr {s t : State} (same : t.inputs = s.inputs) (ch : Letter) : t.fitted ch = s.fitted ch := by
  cases ch <;> simp only [State.fitted, same]

theorem present_congr {s t : State} (same : t.inputs = s.inputs) (l : Letter) : t.present l = s.present l := by
  cases l <;> simp only [State.present, same]

/-- A pass in which no channel is idle is a pre-emption for each DEMAND job that waits. -/
theorem pass_of_busy {s : State} (a b : Sense) (isOpen : s.timeBase.windowOpen = true)
    (busy : ∀ ch, (s.channels.get ch).activity ≠ .idle) :
    ∃ w, PreemptsInTurn (sensesOf a b) s.waitingDemand { s with sched := { s.sched with dispatchCalled := false } } w ∧
      s.dispatchPass (senseValues a b) = { w with now := s.now + 1 } := by
  rw [sensesOf_eq]
  obtain ⟨u, v, w, first, second, turns, is⟩ := passes_dispatchPass s (senseValues a b)
  obtain rfl := first.stands (.inl (busy .A))
  obtain rfl := second.stands (.inl (busy .B))
  rw [if_pos isOpen] at turns
  exact ⟨w, turns, is⟩

/-- What the one SCHEDULED job of a pre-emptible class gives up suffices for the DEMAND job. -/
theorem eligibleOn_of_aborts {s u : State} {ch other : Letter} {f : Flight} {q : SpanRecord} (differ : ch ≠ other)
    (aborts : Aborts ch f s u) (isOpen : s.timeBase.windowOpen = true) (law : DirectoryLaw s) (hq : q ∈ s.spans)
    (otherBusy : (s.channels.get other).activity.flight?.isSome = true) (present : s.present q.bank = true)
    (service : (s.banks.get q.bank).service = .inService) (unheld : (s.banks.get q.bank).holder ≠ some other)
    (released : s.inputs.inhibit = false)
    (room : (if s.fitted ch = true then 2 else 1) ≤ (([0, 1, 2, 3] : List (Fin 4)).filter
      (fun i => ((s.buffers.get i).filter (fun h => h.holder != f.work.id)).isNone)).length) :
    EligibleOn u ch (.test .demand q.id) := by
  have inputs : u.inputs = s.inputs := aborts.frame.same .inputs (by decide)
  have timeBase : u.timeBase = s.timeBase := aborts.frame.same .timeBase (by decide)
  have directory : u.directory = s.directory := aborts.frame.same .directory (by decide)
  have needs : NeedsPort s (.test .demand q.id) q.bank q.position :=
    ⟨fun kind id is => by cases is; exact ⟨q, findSpan_of_mem law hq, rfl, rfl⟩, fun own is => by cases is⟩
  refine ⟨fun c inhibited => ?_, ⟨q.bank, q.position, needs.congr directory.symm, (present_congr inputs _).trans present, ?_,
    fun c another => ?_⟩, ?_, fun c is => by cases is⟩
  · by_cases same : c = ch
    · rw [same, aborts.givesUp.channels, Pair.get_set_self, released] at inhibited
      cases inhibited
    · obtain rfl : c = other := Letter.eq_other same differ.symm
      rw [aborts.givesUp.channels, Pair.get_set_ne _ same] at inhibited
      rw [inhibited] at otherBusy
      cases otherBusy
  · rw [aborts.givesUp.banks]
    split <;> exact service
  · obtain rfl : c = other := Letter.eq_other another differ.symm
    rw [aborts.givesUp.banks]
    split
    · rintro ⟨⟩
    · exact unheld
  · have free : (fun i => (u.buffers.get i).isNone) =
        fun i => ((s.buffers.get i).filter (fun h => h.holder != f.work.id)).isNone := by
      funext i
      rw [aborts.givesUp.buffers]
    rw [free, State.buffersNeeded, timeBase, fitted_congr inputs]
    simpa [isOpen] using room

end Sys2Proof.Machine

namespace Sys2Proof

open Machine in
/-- Settles O51: the one victim that there is, the choice of a victim, and the DEMAND jobs in turn. -/
theorem preemptionGivesTheChannelToTheDemandJob : Obligations.PreemptionGivesTheChannelToTheDemandJob := by
  refine ⟨?one, fun s demand => ⟨victimFor_eq_none, fun v => isVictim_of_victimFor⟩, fun a b s isOpen busy => ?turns⟩
  case turns =>
    obtain ⟨w, turns, is⟩ := pass_of_busy a b isOpen busy
    exact ⟨_, w, congrArg Host.Outcome.next is, turns, rfl⟩
  case one =>
    intro a b ch other stage f c id rev demand q r s differ isOpen law busy work preemptible others queue hq names hr holds present
      service unheld released room away
    obtain ⟨g, otherRuns, notScheduled⟩ := others
    have runs : (s.channels.get ch).activity.flight? = some f := by rw [busy]; rfl
    have isId : f.work.id = .span id := by rw [work]; rfl
    have noneIdle (l : Letter) : (s.channels.get l).activity ≠ .idle := by
      intro idle
      by_cases same : l = ch
      · rw [same, busy] at idle
        cases idle
      · obtain rfl : l = other := Letter.eq_other same differ.symm
        rw [idle] at otherRuns
        cases otherRuns
    obtain ⟨w, turns, pass⟩ := pass_of_busy a b isOpen noneIdle
    have waiting : s.waitingDemand = [demand] := by rw [State.waitingDemand, queue]; rfl
    rw [waiting] at turns
    obtain ⟨s0, isAnswered⟩ : ∃ u : State, u = { s with sched := { s.sched with dispatchCalled := false } } := ⟨_, rfl⟩
    have runs0 : (s0.channels.get ch).activity.flight? = some f := by rw [isAnswered]; exact runs
    have law0 : DirectoryLaw s0 := by rw [isAnswered]; exact DirectoryLaw.of_directory (s := s) rfl law
    have hq0 : q ∈ s0.spans := by rw [isAnswered]; exact hq
    have eligible (u : State) (aborts : Aborts ch f s0 u) : EligibleOn u ch (.test .demand demand) := by
      rw [← names]
      rw [isAnswered] at aborts law0
      refine eligibleOn_of_aborts differ aborts isOpen law0 hq ?_ present service unheld released (isId.symm ▸ room)
      exact Option.isSome_iff_exists.mpr ⟨g, otherRuns⟩
    rw [← isAnswered] at turns
    obtain ⟨v, preempts, rfl⟩ := turns
    rcases preempts with ⟨none, -⟩ | ⟨at', f', c', id', u, k, l, position, victim, aborts, isClass, sched, needs, dispatches⟩
    · refine absurd ⟨runs0, ⟨rev, work⟩, ?_, _, aborts_abortChannel runs0, eligible _ (aborts_abortChannel runs0)⟩
        (none ch f c id)
      rw [isAnswered]
      exact preemptible
    obtain ⟨rev', work'⟩ := victim.qualifies.work
    obtain rfl : at' = ch := by
      by_contra another
      obtain rfl : at' = other := Letter.eq_other another differ.symm
      have runs' := victim.qualifies.runs
      rw [isAnswered] at runs'
      obtain rfl : g = f' := Option.some.inj (otherRuns.symm.trans runs')
      exact notScheduled c' id' rev' work'
    obtain rfl : f = f' := Option.some.inj (runs0.symm.trans victim.qualifies.runs)
    cases work.symm.trans work'
    have directory : u.directory = s0.directory := aborts.frame.same .directory (by decide)
    have lawU : DirectoryLaw u := DirectoryLaw.of_directory (s := s0) directory law0
    have hqU : q ∈ u.spans := by rw [State.spans, directory]; exact hq0
    obtain ⟨rfl, rfl⟩ : l = q.bank ∧ position = q.position := by
      obtain ⟨p, found, bank, position⟩ := needs.test .demand demand rfl
      obtain rfl : q = p := Option.some.inj ((findSpan_of_held lawU hqU names).symm.trans found)
      exact ⟨bank.symm, position.symm⟩
    have isK : k = r.cls := by
      have found : s0.findSpan id = some r := findSpan_of_held law0 (by rw [isAnswered]; exact hr) holds
      rw [isClass, found]
      rfl
    have stays : (u.banks.get q.bank).motion = (s.banks.get q.bank).motion ∧
        (u.banks.get q.bank).commanded = (s.banks.get q.bank).commanded := by
      rw [aborts.givesUp.banks, isAnswered]
      split <;> exact ⟨rfl, rfl⟩
    obtain ⟨started, takes, channels, banks⟩ := dispatches.away (by rw [stays.1, stays.2]; exact away)
    obtain ⟨demandQueue, classQueues, -⟩ := dispatches.queue.demand demand (.inl rfl)
    refine ⟨_, started, congrArg Host.Outcome.next pass, ?_, ?_, ?_, ?_, ?_, ?_, ?_, ?_, ?_⟩
    · change w.channels.get other = _
      rw [dispatches.channel_ne differ.symm, aborts.givesUp.channels, Pair.get_set_ne _ differ.symm, isAnswered]
    · change (w.channels.get at').activity = _
      rw [channels, Pair.get_set_self]
    · exact (takes.starts.test .demand demand rfl q hqU names lawU).1
    · change w.sched.demandQueue = _
      rw [demandQueue, sched, isAnswered]
      simp [queue]
    · change w.sched.classQueues.get r.cls = _
      rw [classQueues, sched, isK, isAnswered]
      exact Quad.get_set_self ..
    · change w.sched.classes = _
      rw [dispatches.queue.classes, sched, isAnswered]
    · change w.directory = _
      rw [takes.directory, directory, isAnswered]
    · change w.sched.dispatchCalled = _
      rw [takes.called, sched]
    · change (w.banks.get q.bank).holder = _
      rw [banks, Pair.get_set_self]

end Sys2Proof
end

section
/-! PROOFS. The test of the window (R160 to R165): the time base after a set or an advance, and the window open that it brings;
O39 and O40. -/

namespace Sys2Proof.Machine

/-! ### The test (R161) -/

theorem insideWindow_iff (t o c : Nat) : insideWindow t o c = true ↔ Inside t o c := by
  unfold insideWindow Inside
  by_cases same : o = c
  · simp [same]
  · by_cases less : o < c <;> simp [same, less]

/-- The window's test at the time base of the state. -/
def State.inside (s : State) : Prop := Inside s.timeBase.timeOfDay s.timeBase.openTime s.timeBase.closeTime

theorem retestWindow_of_opens {s : State} {held : List Nat} (inside : s.inside) (closed : s.timeBase.windowOpen = false) :
    s.retestWindow held = s.openWindow held := by
  simp [State.retestWindow, (insideWindow_iff ..).mpr inside, closed]

theorem retestWindow_of_closes {s : State} (held : List Nat) (outside : ¬ s.inside) (isOpen : s.timeBase.windowOpen = true) :
    s.retestWindow held = s.closeWindow := by
  have notInside := Bool.eq_false_of_not_eq_true (mt (insideWindow_iff ..).mp outside)
  simp [State.retestWindow, notInside, isOpen]

theorem retestWindow_of_stands {s : State} (held : List Nat) (agrees : s.inside ↔ s.timeBase.windowOpen = true) :
    s.retestWindow held = s := by
  rw [State.inside, ← insideWindow_iff, ← Bool.eq_iff_iff] at agrees
  simp [State.retestWindow, agrees]

/-! ### The state in which the window is tested -/

/-- The state with its link, its time base and its clock replaced. -/
def State.timed (s : State) (l : Link) (b : TimeBase) (n : Nat) : State := { s with link := l, timeBase := b, now := n }

theorem timed_frame (s : State) (l : Link) (b : TimeBase) (n : Nat) : KeepsBut [.link, .timeBase, .now] s (s.timed l b n) :=
  keepsBut_of_all fun p => by cases p <;> first | (left; simp; done) | exact .inr rfl

theorem respond_frame (s : State) (n : Nat) (r : Reply) : KeepsBut [.link] s (s.respond n r) :=
  keepsBut_of_all fun p => by cases p <;> first | (left; simp; done) | exact .inr rfl

theorem now_openWindow (s : State) (held : List Nat) : (s.openWindow held).now = s.now + 1 := by
  obtain ⟨u, v, w, -, -, -, is⟩ := passes_dispatchPass (s.raiseWindow.drawn.setAside held) s.drawnSenses
  have pass : ((s.raiseWindow.drawn.setAside held).dispatchPass s.drawnSenses).now = s.now + 1 := by rw [is]; rfl
  exact pass

section Timed

variable {s t : State} {l : Link} {b : TimeBase} {n : Nat} {held : List Nat}

/-- What a test of the window leaves, for every command that tests it. -/
theorem windowTested_retestWindow (after : KeepsBut [.link] ((s.timed l b n).retestWindow held) t)
    (number : b.windowNumber = s.timeBase.windowNumber) (state : b.windowOpen = s.timeBase.windowOpen) :
    WindowTested b.timeOfDay b.openTime b.closeTime b.nextAdvance n s t := by
  have before := timed_frame s l b n
  have timeBase : t.timeBase = ((s.timed l b n).retestWindow held).timeBase := after.same .timeBase (by decide)
  have now : t.now = ((s.timed l b n).retestWindow held).now := after.same .now (by decide)
  by_cases agrees : Inside b.timeOfDay b.openTime b.closeTime ↔ s.timeBase.windowOpen = true
  · have retest := retestWindow_of_stands (s := s.timed l b n) held (agrees.trans (by rw [← state]; rfl))
    rw [retest] at timeBase now after
    refine ⟨by rw [timeBase]; rfl, by rw [timeBase]; rfl, by rw [timeBase]; rfl, by rw [timeBase]; rfl, ?_, fun inside closed => ?_,
      fun outside opened => absurd (agrees.mpr opened) outside, fun _ => ⟨?_, now, before.trans (after.mono (by decide))⟩⟩
    · rw [timeBase, agrees, ← state]
      rfl
    · cases closed.symm.trans (agrees.mp inside)
    · rw [timeBase, ← number]
      rfl
  by_cases inside : Inside b.timeOfDay b.openTime b.closeTime
  · have closed : s.timeBase.windowOpen = false :=
      Bool.eq_false_of_not_eq_true fun opened => agrees ⟨fun _ => opened, fun _ => inside⟩
    rw [retestWindow_of_opens (s := s.timed l b n) inside (state.trans closed)] at timeBase now after
    rw [timeBase_openWindow] at timeBase
    have frame := openWindow_frame (s.timed l b n) held
    refine ⟨by rw [timeBase]; rfl, by rw [timeBase]; rfl, by rw [timeBase]; rfl, by rw [timeBase]; rfl, ?_,
      fun _ _ => ⟨?_, ?_, ((before.mono (by decide)).trans (frame.mono (by decide))).trans (after.mono (by decide))⟩,
      fun outside => absurd inside outside, fun is => absurd is agrees⟩
    · rw [timeBase]
      exact ⟨fun _ => inside, fun _ => rfl⟩
    · rw [timeBase, ← number]
      rfl
    · rw [now, now_openWindow]
      rfl
  · have opened : s.timeBase.windowOpen = true := by
      by_contra closed
      exact agrees ⟨fun is => absurd is inside, fun is => absurd is closed⟩
    rw [retestWindow_of_closes (s := s.timed l b n) held inside (state.trans opened)] at timeBase now after
    rw [timeBase_closeWindow] at timeBase
    have frame := closeWindow_frame (s.timed l b n)
    refine ⟨by rw [timeBase]; rfl, by rw [timeBase]; rfl, by rw [timeBase]; rfl, by rw [timeBase]; rfl, ?_,
      fun is => absurd is inside,
      fun _ _ => ⟨?_, ?_, ((before.mono (by decide)).trans (frame.mono (by decide))).trans (after.mono (by decide))⟩,
      fun is => absurd is agrees⟩
    · rw [timeBase]
      exact ⟨(fun is => by cases is), fun is => absurd is inside⟩
    · rw [timeBase, ← number]
      rfl
    · rw [now, frame.same .now (by decide)]
      rfl

/-- What a window open queues is read of the schedule, the spans and the banks. -/
theorem WindowOpens.of_timed (h : WindowOpens (s.timed l b n) t) (number : b.windowNumber = s.timeBase.windowNumber) :
    WindowOpens s t where
  open_ := h.open_
  number := by rw [h.number, ← number]; rfl
  queues := h.queues
  verify ch := by
    rw [h.verify ch, present_congr (s := s) (t := s.timed l b n) rfl]
    rfl
  credits := h.credits
  demand := h.demand
  called := h.called

/-- A test that opens the window, as the command that brings it leaves it. -/
theorem opens_retestWindow {parts : List Part} (after : KeepsBut [.link] ((s.timed l b n).retestWindow held) t)
    (number : b.windowNumber = s.timeBase.windowNumber) (inside : Inside b.timeOfDay b.openTime b.closeTime)
    (closed : b.windowOpen = false) (frame : KeepsBut parts s (s.timed l b n)) (timeBase : .timeBase ∈ parts)
    (sched : .sched ∈ parts) : OpensAndPasses held parts n s t := by
  rw [retestWindow_of_opens (s := s.timed l b n) inside closed] at after
  refine opens_openWindow ((windowOpens_raiseWindow (s.timed l b n)).of_timed number) rfl ?_ rfl after
  have raised := raiseWindow_frame (s.timed l b n)
  exact ((frame.mono (by simp +contextual)).trans (raised.mono (by simp [timeBase, sched]))).trans
    ((drawn_frame _).mono (by simp))

end Timed

/-! ### CLOCK_SET, WINDOW_SET and TIME_ADVANCE (R160 to R163) -/

/-- The state in which CLOCK_SET tests the window. -/
def State.clockTested (s : State) (t : Nat) : State :=
  s.timed s.link.discard { s.timeBase with timeOfDay := t, nextAdvance := s.now + 1000000000 } s.now

/-- The state in which WINDOW_SET tests the window. -/
def State.windowTested (s : State) (o c : Nat) : State :=
  s.timed s.link.discard { s.timeBase with openTime := o, closeTime := c } s.now

/-- The state in which TIME_ADVANCE tests the window. -/
def State.advanceTested (s : State) : State :=
  s.timed s.link { s.timeBase with
    timeOfDay := (s.timeBase.timeOfDay + 1) % 86400, nextAdvance := s.timeBase.nextAdvance + 1000000000 }
    (max s.now s.timeBase.nextAdvance)

theorem exec_timeAdvance (s : State) : exec .timeAdvance s = .next (s.advanceTested.retestWindow s.heldTogether) := rfl

theorem actClockSet_of_gt {v : U32} (s : State) (above : 86399 < v.toNat) : actClockSet v s = (s, Reply.refusal .badField) :=
  if_pos above

theorem actWindowSet_of_gt {o c : U32} (s : State) (above : 86399 < o.toNat ∨ 86399 < c.toNat) :
    actWindowSet o c s = (s, Reply.refusal .badField) := if_pos above

section Set

variable {s : State} (ready : s.ready = true)
include ready

theorem exec_clockSet_of_le {v : U32} (within : v.toNat ≤ 86399) :
    ∃ t, exec (.clockSet v) s = .next t ∧ Answered s t .ok (timeBaseBytes t.timeBase) ∧
      KeepsBut [.link] ((s.clockTested v.toNat).retestWindow []) t := by
  have acts : actClockSet v s.discardPending =
      (s.discardPending.withClock v.toNat, (s.discardPending.withClock v.toNat).timeReply) :=
    if_neg (Nat.not_lt.mpr within)
  obtain ⟨runs, answered, -⟩ := exec_of_act (i := .clockSet v) (n := 7) ready rfl acts (withClock_frame ..) (by decide)
  exact ⟨_, runs, answered, respond_frame ..⟩

theorem exec_windowSet_of_le {o c : U32} (opens : o.toNat ≤ 86399) (closes : c.toNat ≤ 86399) :
    ∃ t, exec (.windowSet o c) s = .next t ∧ Answered s t .ok (timeBaseBytes t.timeBase) ∧
      KeepsBut [.link] ((s.windowTested o.toNat c.toNat).retestWindow []) t := by
  have acts : actWindowSet o c s.discardPending =
      (s.discardPending.withWindow o.toNat c.toNat, (s.discardPending.withWindow o.toNat c.toNat).timeReply) :=
    if_neg (not_or.mpr ⟨Nat.not_lt.mpr opens, Nat.not_lt.mpr closes⟩)
  obtain ⟨runs, answered, -⟩ := exec_of_act (i := .windowSet o c) (n := 11) ready rfl acts (withWindow_frame ..) (by decide)
  exact ⟨_, runs, answered, respond_frame ..⟩

end Set

theorem tested_frame {s : State} {l : Link} {b : TimeBase} : KeepsBut [.link, .timeBase, .sched] s (s.timed l b s.now) :=
  keepsBut_of_all fun p => by cases p <;> first | (left; simp; done) | exact .inr rfl

theorem advanceTested_frame (s : State) : KeepsBut [.timeBase, .sched, .now] s s.advanceTested :=
  keepsBut_of_all fun p => by cases p <;> first | (left; simp; done) | exact .inr rfl

end Sys2Proof.Machine

namespace Sys2Proof

open Machine in
/-- Settles O39, command by command. -/
theorem timeSetsAndAdvancesTestTheWindow : Obligations.TimeSetsAndAdvancesTestTheWindow := by
  refine ⟨fun v s ready => ⟨fun above => turnsAway_of_act ready rfl (actClockSet_of_gt _ above), fun within => ?clock⟩,
    fun o c s ready => ⟨fun above => turnsAway_of_act ready rfl (actWindowSet_of_gt _ above), fun opens closes => ?window⟩,
    fun s => ?advance⟩
  case clock =>
    obtain ⟨t, runs, answered, after⟩ := exec_clockSet_of_le ready within
    exact ⟨t, runs, answered, windowTested_retestWindow (s := s) after rfl rfl⟩
  case window =>
    obtain ⟨t, runs, answered, after⟩ := exec_windowSet_of_le ready opens closes
    exact ⟨t, runs, answered, windowTested_retestWindow (s := s) after rfl rfl⟩
  case advance =>
    have link : (s.advanceTested.retestWindow s.heldTogether).link = s.link :=
      (retestWindow_frame s.advanceTested s.heldTogether).same .link (by decide)
    exact ⟨_, exec_timeAdvance s, link, windowTested_retestWindow (s := s) (KeepsBut.refl [.link] (s.advanceTested.retestWindow s.heldTogether)) rfl rfl⟩

open Machine in
/-- Settles O40, command by command. -/
theorem windowOpenQueuesTheDueSpans : Obligations.WindowOpenQueuesTheDueSpans := by
  refine ⟨mem_heldTogether, fun v s ready within closed inside => ?clock, fun o c s ready opens closes closed inside => ?window,
    fun s closed inside => ?advance⟩
  case clock =>
    obtain ⟨t, runs, -, after⟩ := exec_clockSet_of_le ready within
    exact ⟨t, runs, opens_retestWindow (s := s) after rfl inside closed tested_frame (by decide) (by decide)⟩
  case window =>
    obtain ⟨t, runs, -, after⟩ := exec_windowSet_of_le ready opens closes
    exact ⟨t, runs, opens_retestWindow (s := s) after rfl inside closed tested_frame (by decide) (by decide)⟩
  case advance =>
    exact ⟨_, exec_timeAdvance s, opens_retestWindow (s := s) (KeepsBut.refl [.link] (s.advanceTested.retestWindow s.heldTogether)) rfl
      inside closed (advanceTested_frame s) (by decide) (by decide)⟩

end Sys2Proof
end

section
/-! PROOFS. The window close at the channels (R88, R89, R87): what a close at one channel leaves, and the two closes one after the
other in either order. -/

namespace Sys2Proof.Machine

/-! ### The vocabulary of a close at one channel -/

/-- The channel is at its 1310 nm acquisition. -/
def State.firesSecond (s : State) (ch : Letter) : Prop :=
  ∃ since f, (s.channels.get ch).activity = .busy (.firing1310 since) f

/-- The job is in the analysis queue or in the engine. -/
def State.analyses (s : State) (g : Flight) : Prop := g ∈ s.engine.queue ∨ s.engine.current.map Analysis.flight = some g

/-- What a close at the channel can change: the channel, the bank that it holds while it fires at 1310 nm, the call for dispatch,
its job's 1310 nm buffer, and, from 1310 nm, the engine. -/
structure ClosesAt (ch : Letter) (u v : State) : Prop where
  others   : ∀ m : Letter, m ≠ ch → v.channels.get m = u.channels.get m
  sched    : ∃ b, v.sched = { u.sched with dispatchCalled := b }
  banks    : ∀ l : Letter, v.banks.get l = u.banks.get l ∨ ((u.banks.get l).holder = some ch ∧ u.firesSecond ch ∧
    v.banks.get l = { u.banks.get l with holder := none })
  free     : ∀ i : Fin 4, u.buffers.get i = none → v.buffers.get i = none
  held     : ∀ (i : Fin 4) (h : Holding), u.buffers.get i = some h →
    (∀ f, (u.channels.get ch).activity.flight? = some f → h.holder = f.work.id → h.role = .nm1625) → v.buffers.get i = some h
  came     : ∀ (i : Fin 4) (h : Holding), v.buffers.get i = some h →
    ∃ h0, u.buffers.get i = some h0 ∧ h0.holder = h.holder ∧ h0.role = h.role
  stays    : ∀ g, u.analyses g → v.analyses g
  engine   : ¬ u.firesSecond ch → v.engine = u.engine

/-- What a cut of the channel's 1310 nm acquisition leaves; `apart` is what the trace needs of the jobs besides. -/
structure CutAt (apart : Prop) (s t : State) (ch : Letter) (f g : Flight) : Prop where
  channel : t.channels.get ch = { s.channels.get ch with activity := .idle, accumulator := [] }
  arrived : t.analyses g
  enough  : 64 ≤ f.shotsDone →
    g = { f with
      short := f.short || decide (f.shotsDone < f.snapshot.shots)
      recorded := some { trim := (s.channels.get ch).trim, degraded := (s.channels.get ch).degraded } }
  trace   : 64 ≤ f.shotsDone → apart → ∀ (i : Fin 4) (h : Holding), s.buffers.get i = some h →
    h.holder = f.work.id → h.role = .nm1310 →
    t.buffers.get i = some { h with
      trace := some (levelTrace f.snapshot f.shotsDone (s.channels.get ch).accumulator) }
  tooFew  : f.shotsDone < 64 →
    g = { f with
      plan := .single
      single := true
      recorded := some { trim := (s.channels.get ch).trim, degraded := (s.channels.get ch).degraded } }
  dropped : f.shotsDone < 64 → ∀ (i : Fin 4) (h : Holding), t.buffers.get i = some h →
    ¬(h.holder = f.work.id ∧ h.role = .nm1310)

/-- What a close leaves of one channel, by what it was doing. -/
structure ChannelCloses (apart : Prop) (ch : Letter) (s t : State) : Prop where
  rests    : (s.channels.get ch).activity.flight? = none → t.channels.get ch = s.channels.get ch
  released : ∀ l : Letter, (s.banks.get l).holder = some ch → s.firesSecond ch →
    t.banks.get l = { s.banks.get l with holder := none }
  single   : ∀ (stage : Stage) (f : Flight), (s.channels.get ch).activity = .busy stage f →
    (∀ since, stage ≠ .firing1310 since) → f.plan = .single → t.channels.get ch = s.channels.get ch
  dual     : ∀ (stage : Stage) (f : Flight), (s.channels.get ch).activity = .busy stage f →
    (∀ since, stage ≠ .firing1310 since) → f.plan = .dual →
    t.channels.get ch = { s.channels.get ch with activity := .busy stage { f with plan := .single, single := true } } ∧
    ∀ (i : Fin 4) (h : Holding), t.buffers.get i = some h → ¬(h.holder = f.work.id ∧ h.role = .nm1310)
  cut      : ∀ (since : Nat) (f : Flight), (s.channels.get ch).activity = .busy (.firing1310 since) f →
    ∃ g, CutAt apart s t ch f g

theorem ClosesAt.refl (ch : Letter) (u : State) : ClosesAt ch u u :=
  ⟨fun _ _ => rfl, ⟨_, rfl⟩, fun _ => .inl rfl, fun _ free => free, fun _ _ here _ => here, fun _ h here => ⟨h, here, rfl, rfl⟩,
    fun _ here => here, fun _ => rfl⟩

/-! ### A hand-on -/

theorem stays_handOn (s : State) (ch : Letter) (f g : Flight) (here : s.analyses g) : (s.handOn ch f).analyses g :=
  stays_takeHead (here.imp (fun queued => List.mem_append_left _ queued) id)

/-! ### A close at one channel, by what it is doing -/

theorem not_firesSecond_of_stage {s : State} {ch : Letter} {stage : Stage} {f : Flight}
    (busy : (s.channels.get ch).activity = .busy stage f) (early : ∀ since, stage ≠ .firing1310 since) : ¬ s.firesSecond ch := by
  rintro ⟨since, g, fires⟩
  obtain ⟨rfl, -⟩ := Activity.busy.inj (busy.symm.trans fires)
  exact early since rfl

theorem not_firesSecond_of_rest {s : State} {ch : Letter} (rests : (s.channels.get ch).activity.flight? = none) :
    ¬ s.firesSecond ch := by
  rintro ⟨since, g, fires⟩
  rw [fires] at rests
  cases rests

theorem closeAtChannel_of_rest {s : State} {ch : Letter} (rests : (s.channels.get ch).activity.flight? = none) :
    s.closeAtChannel ch = s := by
  unfold State.closeAtChannel
  split
  · rfl
  · rfl
  all_goals
    next busy =>
      rw [busy] at rests
      cases rests

theorem closeAtChannel_of_early {s : State} {ch : Letter} {stage : Stage} {f : Flight}
    (busy : (s.channels.get ch).activity = .busy stage f) (early : ∀ since, stage ≠ .firing1310 since) :
    s.closeAtChannel ch = if f.plan = .dual then s.drop1310 ch stage f else s := by
  cases stage with
  | firing1310 since => exact absurd rfl (early since)
  | switching => simp only [State.closeAtChannel, busy]
  | guard due => simp only [State.closeAtChannel, busy]
  | firing1625 since => simp only [State.closeAtChannel, busy]

theorem closeAtChannel_of_second {s : State} {ch : Letter} {since : Nat} {f : Flight}
    (busy : (s.channels.get ch).activity = .busy (.firing1310 since) f) : s.closeAtChannel ch = s.cut1310 ch f := by
  simp only [State.closeAtChannel, busy]

/-! #### A channel that rests, or whose job has no 1310 nm step -/

theorem closes_of_rest {s : State} {ch : Letter} (rests : (s.channels.get ch).activity.flight? = none) :
    ChannelCloses True ch s s := by
  have idle {stage : Stage} {f : Flight} (busy : (s.channels.get ch).activity = .busy stage f) : False := by
    rw [busy] at rests
    cases rests
  exact ⟨fun _ => rfl, fun _ _ fires => absurd fires (not_firesSecond_of_rest rests), fun _ _ busy => (idle busy).elim,
    fun _ _ busy => (idle busy).elim, fun _ _ busy => (idle busy).elim⟩

theorem closes_of_single {s : State} {ch : Letter} {stage : Stage} {f : Flight}
    (busy : (s.channels.get ch).activity = .busy stage f) (early : ∀ since, stage ≠ .firing1310 since) (plan : f.plan = .single) :
    ChannelCloses True ch s s := by
  refine ⟨fun _ => rfl, fun _ _ fires => absurd fires (not_firesSecond_of_stage busy early), fun _ _ _ _ _ => rfl,
    fun stage' g busy' _ dual => ?_, fun since g busy' => ?_⟩
  all_goals obtain ⟨rfl, rfl⟩ := Activity.busy.inj (busy.symm.trans busy')
  · cases plan.symm.trans dual
  · exact absurd rfl (early since)

/-! #### A DUAL job before its 1310 nm step (R88) -/

section Drop

variable {s : State} {ch : Letter} {stage : Stage} {f : Flight}

theorem buffers_drop1310 (i : Fin 4) : (s.drop1310 ch stage f).buffers.get i =
    (s.buffers.get i).filter (fun h => !(h.holder == f.work.id && h.role == .nm1310)) :=
  buffers_free1310 (s.setActivity ch (.busy stage { f with plan := .single, single := true })) f.work.id i

/-- A buffer that is freed was the job's, for 1310 nm. -/
theorem filter_not1310_of_other {h : Holding} {j : JobId} (other : h.holder = j → h.role = .nm1625) :
    (some h).filter (fun h => !(h.holder == j && h.role == .nm1310)) = some h := by
  rw [Option.filter_some, if_pos]
  by_cases mine : h.holder = j
  · simp [other mine]
  · simp [mine]

theorem kept_of_filter {b : Option Holding} {j : JobId} {h : Holding}
    (here : b.filter (fun h => !(h.holder == j && h.role == .nm1310)) = some h) :
    b = some h ∧ ¬(h.holder = j ∧ h.role = .nm1310) := by
  obtain ⟨is, keeps⟩ := Option.filter_eq_some_iff.mp here
  exact ⟨is, fun ⟨mine, second⟩ => by simp [mine, second] at keeps⟩

variable (busy : (s.channels.get ch).activity = .busy stage f)
include busy

theorem closesAt_drop1310 : ClosesAt ch s (s.drop1310 ch stage f) where
  others m differ := Pair.get_set_ne _ differ _
  sched := ⟨_, rfl⟩
  banks _ := .inl rfl
  free i free := by rw [buffers_drop1310, free]; rfl
  held i h here other := by
    rw [buffers_drop1310, here]
    exact filter_not1310_of_other (other f (by rw [busy]; rfl))
  came i h here := by
    rw [buffers_drop1310] at here
    exact ⟨h, (kept_of_filter here).1, rfl, rfl⟩
  stays _ here := here
  engine _ := rfl

theorem closes_drop1310 (early : ∀ since, stage ≠ .firing1310 since) (plan : f.plan = .dual) :
    ChannelCloses True ch s (s.drop1310 ch stage f) := by
  refine ⟨fun rests => ?_, fun _ _ fires => absurd fires (not_firesSecond_of_stage busy early), fun stage' g busy' _ single => ?_,
    fun stage' g busy' _ _ => ?_, fun since g busy' => ?_⟩
  · rw [busy] at rests
    cases rests
  all_goals obtain ⟨rfl, rfl⟩ := Activity.busy.inj (busy.symm.trans busy')
  · cases plan.symm.trans single
  · refine ⟨Pair.get_set_self .., fun i h here => ?_⟩
    rw [buffers_drop1310] at here
    exact (kept_of_filter here).2
  · exact absurd rfl (early since)

end Drop

/-! #### A 1310 nm acquisition (R89) -/

section Cut

variable {s : State} {ch : Letter} {since : Nat} {f : Flight}

/-- The state from which the cut job is handed on. -/
def State.beforeCut (s : State) (ch : Letter) (f : Flight) : State :=
  if 64 ≤ f.shotsDone then
    s.fillBuffer f.work.id .nm1310 (levelTrace f.snapshot f.shotsDone (s.channels.get ch).accumulator)
  else s.free1310 f.work.id

/-- The job as it is handed on at a cut. -/
def Flight.atCut (f : Flight) : Flight :=
  if 64 ≤ f.shotsDone then { f with short := f.short || decide (f.shotsDone < f.snapshot.shots) }
  else { f with plan := .single, single := true }

theorem cut1310_eq (s : State) (ch : Letter) (f : Flight) : s.cut1310 ch f = (s.beforeCut ch f).handOn ch f.atCut := by
  unfold State.cut1310 State.beforeCut Flight.atCut
  split <;> rfl

theorem beforeCut_frame (s : State) (ch : Letter) (f : Flight) : KeepsBut [.buffers, .sched] s (s.beforeCut ch f) := by
  unfold State.beforeCut
  split
  · exact (fillBuffer_frame ..).mono (by decide)
  · exact free1310_frame ..

theorem sched_beforeCut (s : State) (ch : Letter) (f : Flight) :
    ∃ b, (s.beforeCut ch f).sched = { s.sched with dispatchCalled := b } := by
  unfold State.beforeCut
  split <;> exact ⟨_, rfl⟩

theorem buffers_beforeCut_of_enough (enough : 64 ≤ f.shotsDone) (i : Fin 4) :
    (s.beforeCut ch f).buffers.get i = (s.buffers.get i).map (fun h => if h.holder = f.work.id ∧ h.role = .nm1310 then
      { h with trace := some (levelTrace f.snapshot f.shotsDone (s.channels.get ch).accumulator) } else h) := by
  rw [State.beforeCut, if_pos enough, buffers_fillBuffer]

theorem buffers_beforeCut_of_few (few : f.shotsDone < 64) (i : Fin 4) :
    (s.beforeCut ch f).buffers.get i =
      (s.buffers.get i).filter (fun h => !(h.holder == f.work.id && h.role == .nm1310)) := by
  rw [State.beforeCut, if_neg (Nat.not_le.mpr few), buffers_free1310]

theorem buffers_cut1310 (s : State) (ch : Letter) (f : Flight) : (s.cut1310 ch f).buffers = (s.beforeCut ch f).buffers := by
  rw [cut1310_eq]
  exact (handOn_frame ..).same .buffers (by decide)

theorem channels_cut1310 (s : State) (ch : Letter) (f : Flight) :
    (s.cut1310 ch f).channels = s.channels.set ch { s.channels.get ch with activity := .idle, accumulator := [] } := by
  have same : (s.beforeCut ch f).channels = s.channels := (beforeCut_frame s ch f).same .channels (by decide)
  rw [cut1310_eq, (handsOn_handOn _ ch f.atCut).channels, same]

theorem banks_cut1310 (s : State) (ch : Letter) (f : Flight) (l : Letter) : (s.cut1310 ch f).banks.get l =
    if (s.banks.get l).holder = some ch then { s.banks.get l with holder := none } else s.banks.get l := by
  have same : (s.beforeCut ch f).banks = s.banks := (beforeCut_frame s ch f).same .banks (by decide)
  rw [cut1310_eq, (handsOn_handOn _ ch f.atCut).banks, same]

variable (busy : (s.channels.get ch).activity = .busy (.firing1310 since) f)
include busy

theorem closesAt_cut1310 : ClosesAt ch s (s.cut1310 ch f) := by
  have fires : s.firesSecond ch := ⟨since, f, busy⟩
  have before := beforeCut_frame s ch f
  have engine : (s.beforeCut ch f).engine = s.engine := before.same .engine (by decide)
  have runs : (s.channels.get ch).activity.flight? = some f := by rw [busy]; rfl
  have buffer (i : Fin 4) : (s.cut1310 ch f).buffers.get i = (s.beforeCut ch f).buffers.get i := by rw [buffers_cut1310]
  refine ⟨fun m differ => ?_, ?_, fun l => ?_, fun i free => ?_, fun i h here other => ?_, fun i h here => ?_, fun g here => ?_,
    fun not => absurd fires not⟩
  · rw [channels_cut1310, Pair.get_set_ne _ differ]
  · obtain ⟨b, sched⟩ := sched_beforeCut s ch f
    rw [cut1310_eq, (handsOn_handOn _ ch f.atCut).called, sched]
    exact ⟨_, rfl⟩
  · rw [banks_cut1310]
    split
    next holds => exact .inr ⟨holds, fires, rfl⟩
    next => exact .inl rfl
  · rw [buffer]
    rcases le_or_gt 64 f.shotsDone with enough | few
    · rw [buffers_beforeCut_of_enough enough, free]
      rfl
    · rw [buffers_beforeCut_of_few few, free]
      rfl
  · rw [buffer]
    rcases le_or_gt 64 f.shotsDone with enough | few
    · have another : ¬(h.holder = f.work.id ∧ h.role = .nm1310) := fun ⟨mine, second⟩ => by
        cases (other f runs mine).symm.trans second
      rw [buffers_beforeCut_of_enough enough, here, Option.map_some, if_neg another]
    · rw [buffers_beforeCut_of_few few, here]
      exact filter_not1310_of_other (other f runs)
  · rw [buffer] at here
    rcases le_or_gt 64 f.shotsDone with enough | few
    · rw [buffers_beforeCut_of_enough enough, Option.map_eq_some_iff] at here
      obtain ⟨h0, held, rfl⟩ := here
      refine ⟨h0, held, ?_⟩
      split <;> exact ⟨rfl, rfl⟩
    · rw [buffers_beforeCut_of_few few] at here
      exact ⟨h, (kept_of_filter here).1, rfl, rfl⟩
  · rw [cut1310_eq]
    exact stays_handOn _ ch f.atCut g (by rw [State.analyses, engine]; exact here)

theorem closes_cut1310 : ChannelCloses True ch s (s.cut1310 ch f) := by
  have fires : s.firesSecond ch := ⟨since, f, busy⟩
  have channels : (s.beforeCut ch f).channels = s.channels := (beforeCut_frame s ch f).same .channels (by decide)
  refine ⟨fun rests => absurd fires (not_firesSecond_of_rest rests), fun l holds _ => ?_, fun stage g busy' early => ?_,
    fun stage g busy' early => ?_, fun since' g busy' => ?_⟩
  · rw [banks_cut1310, if_pos holds]
  · exact absurd fires (not_firesSecond_of_stage busy' early)
  · exact absurd fires (not_firesSecond_of_stage busy' early)
  obtain ⟨-, rfl⟩ := Activity.busy.inj (busy.symm.trans busy')
  refine ⟨{ f.atCut with recorded := some { trim := (s.channels.get ch).trim, degraded := (s.channels.get ch).degraded } },
    ?_, ?_, fun enough => ?_, fun enough _ i h here mine second => ?_, fun few => ?_, fun few i h here => ?_⟩
  · rw [channels_cut1310, Pair.get_set_self]
  · have arrived := (handsOn_handOn (s.beforeCut ch f) ch f.atCut).arrived
    rw [channels] at arrived
    rw [cut1310_eq]
    exact arrived
  · rw [Flight.atCut, if_pos enough]
  · rw [buffers_cut1310, buffers_beforeCut_of_enough enough, here, Option.map_some, if_pos ⟨mine, second⟩]
  · rw [Flight.atCut, if_neg (Nat.not_le.mpr few)]
  · rw [buffers_cut1310, buffers_beforeCut_of_few few] at here
    exact (kept_of_filter here).2

end Cut

/-- A close at a channel, whatever it is doing. -/
theorem closes_closeAtChannel (s : State) (ch : Letter) :
    ClosesAt ch s (s.closeAtChannel ch) ∧ ChannelCloses True ch s (s.closeAtChannel ch) := by
  cases activity : (s.channels.get ch).activity with
  | idle =>
    have rests : (s.channels.get ch).activity.flight? = none := by rw [activity]; rfl
    rw [closeAtChannel_of_rest rests]
    exact ⟨.refl .., closes_of_rest rests⟩
  | inhibited =>
    have rests : (s.channels.get ch).activity.flight? = none := by rw [activity]; rfl
    rw [closeAtChannel_of_rest rests]
    exact ⟨.refl .., closes_of_rest rests⟩
  | busy stage f =>
    by_cases second : ∃ since, stage = .firing1310 since
    · obtain ⟨since, rfl⟩ := second
      rw [closeAtChannel_of_second activity]
      exact ⟨closesAt_cut1310 activity, closes_cut1310 activity⟩
    · have early (since : Nat) : stage ≠ .firing1310 since := fun is => second ⟨since, is⟩
      rw [closeAtChannel_of_early activity early]
      split
      next dual => exact ⟨closesAt_drop1310 activity, closes_drop1310 activity early dual⟩
      next notDual => exact ⟨.refl .., closes_of_single activity early (Plan.eq_single notDual)⟩

/-! ### Two closes one after the other -/

section Both

variable {apart : Prop} {ch other : Letter} {s u v : State} (differ : ch ≠ other)
include differ

/-- What the close at a channel left stands when the other channel closes after it. -/
theorem ChannelCloses.after (h : ChannelCloses True ch s u) (k : ClosesAt other u v)
    (jobs : apart → ∀ f g, (s.channels.get ch).activity.flight? = some f →
      (u.channels.get other).activity.flight? = some g → f.work.id ≠ g.work.id) : ChannelCloses apart ch s v := by
  have stands := k.others ch differ
  have gone {j : JobId} (none : ∀ (i : Fin 4) (h : Holding), u.buffers.get i = some h → ¬(h.holder = j ∧ h.role = .nm1310))
      (i : Fin 4) (h : Holding) (here : v.buffers.get i = some h) : ¬(h.holder = j ∧ h.role = .nm1310) := by
    obtain ⟨h0, here0, holder, role⟩ := k.came i h here
    rw [← holder, ← role]
    exact none i h0 here0
  have banks (l : Letter) (released : u.banks.get l = { s.banks.get l with holder := none }) : v.banks.get l = u.banks.get l := by
    rcases k.banks l with stands | ⟨holder, -⟩
    · exact stands
    · rw [released] at holder
      cases holder
  refine ⟨fun rests => stands.trans (h.rests rests), fun l holds fires =>
      (banks l (h.released l holds fires)).trans (h.released l holds fires),
    fun stage f busy early plan => stands.trans (h.single stage f busy early plan), fun stage f busy early plan => ?_,
    fun since f busy => ?_⟩
  · obtain ⟨channel, none⟩ := h.dual stage f busy early plan
    exact ⟨stands.trans channel, gone none⟩
  · obtain ⟨g, cut⟩ := h.cut since f busy
    refine ⟨g, stands.trans cut.channel, k.stays g cut.arrived, cut.enough, fun enough isApart i held here mine second => ?_,
      cut.tooFew, fun few => gone (cut.dropped few)⟩
    refine k.held i _ (cut.trace enough trivial i held here mine second) fun g' runs same => ?_
    exact absurd (mine.symm.trans same) (jobs isApart f g' (by rw [busy]; rfl) runs)

/-- A close at a channel does there what it would have done before the other channel closed. -/
theorem ChannelCloses.before (k : ClosesAt other s u) (h : ChannelCloses True ch u v)
    (jobs : apart → ∀ f g, (s.channels.get ch).activity.flight? = some f →
      (s.channels.get other).activity.flight? = some g → f.work.id ≠ g.work.id) : ChannelCloses apart ch s v := by
  have same := k.others ch differ
  have bank {l : Letter} (holds : (s.banks.get l).holder = some ch) : u.banks.get l = s.banks.get l := by
    rcases k.banks l with stands | ⟨holder, -⟩
    · exact stands
    · exact absurd (Option.some.inj (holds.symm.trans holder)) differ
  obtain ⟨rests, released, single, dual, cut⟩ := h
  simp only [State.firesSecond, same] at rests released single dual cut
  refine ⟨rests, fun l holds fires => ?_, single, dual, fun since f busy => ?_⟩
  · rw [released l (by rw [bank holds]; exact holds) fires, bank holds]
  · obtain ⟨g, channel, arrived, enough, trace, tooFew, dropped⟩ := cut since f busy
    rw [same] at channel enough trace tooFew
    refine ⟨g, channel, arrived, enough, fun many isApart i held here mine second => ?_, tooFew, dropped⟩
    refine trace many trivial i held (k.held i held here fun g' runs is => ?_) mine second
    exact absurd (mine.symm.trans is) (jobs isApart f g' (by rw [busy]; rfl) runs)

end Both

end Sys2Proof.Machine
end

section
/-! PROOFS. The window close (R166, R22): what it discards at the queues and leaves at both channels; O41. -/

namespace Sys2Proof.Machine

/-! ### The spans missed (R22) -/

theorem spans_missAll (s : State) (ids : List Nat) :
    (s.missAll ids).spans = s.spans.map (fun r => if r.id ∈ ids then r.miss else r) := by
  have entry (e : Entry) : (e.missIfIn ids).span? = e.span?.map (fun r => if r.id ∈ ids then r.miss else r) := by
    cases e with
    | vacated i => rfl
    | span r => by_cases mem : r.id ∈ ids <;> simp [Entry.missIfIn, Entry.span?, mem]
  calc (s.directory.map (Entry.missIfIn ids)).filterMap Entry.span?
    _ = s.directory.filterMap (fun e => e.span?.map (fun r => if r.id ∈ ids then r.miss else r)) := by
      rw [List.filterMap_map]
      exact List.filterMap_congr fun e _ => entry e
    _ = _ := (List.map_filterMap ..).symm

theorem vacated_missAll (s : State) (ids : List Nat) (i : Nat) :
    Entry.vacated i ∈ (s.missAll ids).directory ↔ Entry.vacated i ∈ s.directory := by
  change Entry.vacated i ∈ s.directory.map (Entry.missIfIn ids) ↔ _
  rw [List.mem_map]
  constructor
  · rintro ⟨e, mem, is⟩
    cases e with
    | vacated k => exact is ▸ mem
    | span r => by_cases hit : r.id ∈ ids <;> simp [Entry.missIfIn, hit] at is
  · exact fun mem => ⟨_, mem, rfl⟩

/-! ### Both channels, in either order -/

/-- The jobs at the two channels are not one (R168). -/
theorem JobLaw.flights_differ {s : State} (law : JobLaw s) {ch other : Letter} (differ : ch ≠ other) {f g : Flight}
    (here : (s.channels.get ch).activity.flight? = some f) (there : (s.channels.get other).activity.flight? = some g) :
    f.work.id ≠ g.work.id := by
  intro same
  have once := List.nodup_iff_count_le_one.mp law.once f.work.id
  rw [count_jobIds, count_flightIds] at once
  have hereJobs := Channel.jobs_of_flight here
  have thereJobs := Channel.jobs_of_flight there
  rw [← same] at thereJobs
  cases ch <;> cases other <;> first | exact differ rfl | skip
  all_goals
    simp only [Pair.get] at hereJobs thereJobs
    rw [hereJobs, thereJobs, List.count_singleton_self] at once
    omega

/-- What a close at both channels leaves; `apart` is what the traces need of the jobs besides. -/
structure BothClose (apart : Prop) (s t : State) : Prop where
  sched  : ∃ b, t.sched = { s.sched with dispatchCalled := b }
  banks  : ∀ l : Letter, (∀ ch, (s.banks.get l).holder = some ch → ¬ s.firesSecond ch) → t.banks.get l = s.banks.get l
  free   : ∀ i : Fin 4, s.buffers.get i = none → t.buffers.get i = none
  held   : ∀ (i : Fin 4) (h : Holding), s.buffers.get i = some h →
    (∀ ch f, (s.channels.get ch).activity.flight? = some f → h.holder = f.work.id → h.role = .nm1625) →
    t.buffers.get i = some h
  engine : (∀ ch, ¬ s.firesSecond ch) → t.engine = s.engine
  each   : ∀ ch, ChannelCloses apart ch s t

theorem bothClose {apart : Prop} {s : State} {first second : Letter} (differ : first ≠ second)
    (jobs : apart → ∀ f g, (s.channels.get first).activity.flight? = some f →
      (s.channels.get second).activity.flight? = some g → f.work.id ≠ g.work.id) :
    BothClose apart s ((s.closeAtChannel first).closeAtChannel second) := by
  obtain ⟨at1, closes1⟩ := closes_closeAtChannel s first
  obtain ⟨at2, closes2⟩ := closes_closeAtChannel (s.closeAtChannel first) second
  have untouched : (s.closeAtChannel first).channels.get second = s.channels.get second := at1.others second differ.symm
  have fires : (s.closeAtChannel first).firesSecond second ↔ s.firesSecond second := by
    simp only [State.firesSecond, untouched]
  refine ⟨?_, fun l idle => ?_, fun i free => at2.free i (at1.free i free), fun i h here other => ?_, fun idle => ?_, fun ch => ?_⟩
  · obtain ⟨b, sched1⟩ := at1.sched
    obtain ⟨c, sched2⟩ := at2.sched
    exact ⟨c, by rw [sched2, sched1]⟩
  · have stands : (s.closeAtChannel first).banks.get l = s.banks.get l :=
      (at1.banks l).resolve_right fun ⟨holds, isFiring, _⟩ => idle first holds isFiring
    refine ((at2.banks l).resolve_right fun ⟨holds, isFiring, _⟩ => ?_).trans stands
    exact idle second (by rw [← stands]; exact holds) (fires.mp isFiring)
  · refine at2.held i h (at1.held i h here (other first)) ?_
    rw [untouched]
    exact other second
  · rw [at2.engine (mt fires.mp (idle second)), at1.engine (idle first)]
  · by_cases isFirst : ch = first
    · subst isFirst
      refine closes1.after differ at2 ?_
      rw [untouched]
      exact jobs
    · obtain rfl : ch = second := Letter.eq_other isFirst differ.symm
      exact .before differ.symm at1 closes2 fun holds f g here there => (jobs holds g f there here).symm

/-- The order is free (R100), and a draw is taken where it matters. -/
theorem bothClose_closeAtChannels {apart : Prop} {s : State}
    (jobs : apart → ∀ ch other, ch ≠ other → ∀ f g, (s.channels.get ch).activity.flight? = some f →
      (s.channels.get other).activity.flight? = some g → f.work.id ≠ g.work.id) :
    ∃ n, BothClose apart { s with draws := n } s.closeAtChannels := by
  unfold State.closeAtChannels State.eitherOrder
  split
  · refine ⟨s.draws + 1, ?_⟩
    split
    · exact bothClose (s := s.drawn) (by decide) fun holds => jobs holds .B .A (by decide)
    · exact bothClose (s := s.drawn) (by decide) fun holds => jobs holds .A .B (by decide)
  · exact ⟨s.draws, bothClose (s := s) (by decide) fun holds => jobs holds .A .B (by decide)⟩

/-! ### The window close -/

theorem eq_of_keepsBut_link {s t : State} (h : KeepsBut [.link] s t) : t = { s with link := t.link } := by
  have same (p : Part) (other : p ≠ .link) : p.Same s t := h.same p (by simpa using other)
  cases t
  simp only [State.mk.injEq, true_and]
  exact ⟨same .directory (by decide), same .profiles (by decide), same .timeBase (by decide), same .sched (by decide),
    same .banks (by decide), same .thresholds (by decide), same .channels (by decide), same .buffers (by decide),
    same .engine (by decide), same .table (by decide), same .inputs (by decide), same .now (by decide),
    same .draws (by decide), same .pending (by decide)⟩

/-- A window close, as the command or event that brings it leaves it. -/
theorem windowCloses_closeWindow {s t : State} {l : Link} {b : TimeBase} {n : Nat}
    (after : KeepsBut [.link] (s.timed l b n).closeWindow t) : WindowCloses s t := by
  rw [eq_of_keepsBut_link after]
  obtain ⟨d, isD⟩ : ∃ d : State, d = ({ s.timed l b n with timeBase := { b with windowOpen := false } } : State).discardQueued :=
    ⟨_, rfl⟩
  have closed : (s.timed l b n).closeWindow = d.closeAtChannels.callDispatch := by
    rw [isD]
    rfl
  have frame := closeAtChannels_frame d
  have timeBase : d.closeAtChannels.timeBase = d.timeBase := frame.same .timeBase (by decide)
  have directory : d.closeAtChannels.directory = d.directory := frame.same .directory (by decide)
  obtain ⟨m, both⟩ := bothClose_closeAtChannels (apart := JobLaw s) (s := d) fun law ch other differ f g here there => by
    rw [isD] at here there
    exact law.flights_differ differ here there
  obtain ⟨sched, banks, free, held, engine, each⟩ := both
  obtain ⟨called, sched⟩ := sched
  obtain ⟨v, isV⟩ : ∃ v, v = d.closeAtChannels := ⟨_, rfl⟩
  rw [closed, ← isV]
  rw [← isV] at timeBase directory sched banks free held engine each
  clear isV closed frame
  subst isD
  have cutAt (ch : Letter) (since : Nat) (f : Flight) (busy : (s.channels.get ch).activity = .busy (.firing1310 since) f) :
      ∃ g, Cut1310 s { v.callDispatch with link := t.link } ch f g := by
    obtain ⟨g, cut⟩ := (each ch).cut since f busy
    exact ⟨g, cut.channel, cut.arrived, cut.enough, cut.trace, cut.tooFew, cut.dropped⟩
  have verify : v.sched.verifyPlaces = ⟨false, false⟩ := by rw [sched]; rfl
  have demand : v.sched.demandQueue = s.sched.demandQueue := by rw [sched]; rfl
  have classes : v.sched.classes = s.sched.classes := by rw [sched]; rfl
  refine
    { closed := congrArg TimeBase.windowOpen timeBase
      queues := fun c => ?queues
      verify := verify
      demand := demand
      classes := classes
      called := rfl
      spans := ?spans
      reports := fun i => ?reports
      released := fun l ch holds fires => (each ch).released l holds fires
      banks := fun l idle => banks l fun ch holds ⟨since, f, busy⟩ => idle ch since f holds busy
      free := free
      held := fun i h here other => held i h here fun ch f runs => ?held
      engine := fun idle => engine fun ch ⟨since, f, busy⟩ => idle ch since f busy
      rests := fun ch => (each ch).rests
      single := fun ch => (each ch).single
      dual := fun ch => (each ch).dual
      cut := cutAt }
  case queues =>
    change v.sched.classQueues.get c = []
    rw [sched]
    fin_cases c <;> rfl
  case spans =>
    change v.directory.filterMap Entry.span? = _
    rw [directory]
    refine (spans_missAll s s.sched.classQueues.toList.flatten).trans (List.map_congr_left fun r _ => ?_)
    simp only [Quad.mem_flatten]
    rfl
  case reports =>
    change Entry.vacated i ∈ v.directory ↔ _
    rw [directory]
    exact vacated_missAll s s.sched.classQueues.toList.flatten i
  case held =>
    cases activity : (s.channels.get ch).activity with
    | idle => exact absurd (runs.symm.trans (congrArg Activity.flight? activity)) (by rintro ⟨⟩)
    | inhibited => exact absurd (runs.symm.trans (congrArg Activity.flight? activity)) (by rintro ⟨⟩)
    | busy stage g =>
      obtain rfl : f = g := Option.some.inj (runs.symm.trans (congrArg Activity.flight? activity))
      exact other ch stage f activity

/-- A test that closes the window. -/
theorem closes_retestWindow {s t : State} {l : Link} {b : TimeBase} {n : Nat} {held : List Nat} {parts : List Part}
    (after : KeepsBut [.link] ((s.timed l b n).retestWindow held) t) (isOpen : b.windowOpen = true)
    (outside : ¬ Inside b.timeOfDay b.openTime b.closeTime) (frame : KeepsBut parts s (s.timed l b n))
    (closing : ∀ p ∈ [.timeBase, .directory, .buffers, .sched, .banks, .channels, .engine, .draws], p ∈ parts)
    (link : .link ∈ parts ∨ t.link = l) : WindowCloses s t ∧ KeepsBut parts s t := by
  rw [retestWindow_of_closes (s := s.timed l b n) held outside isOpen] at after
  have closed := closeWindow_frame (s.timed l b n)
  refine ⟨windowCloses_closeWindow after, frame.trans ((closed.mono closing).trans ⟨fun p other => ?_⟩)⟩
  by_cases isLink : p = .link
  · subst isLink
    exact (link.resolve_left other).trans (closed.same .link (by decide)).symm
  · exact after.same p (by simpa using isLink)

end Sys2Proof.Machine

namespace Sys2Proof

open Machine in
/-- Settles O41, command by command. -/
theorem windowCloseDiscardsDropsAndCuts : Obligations.WindowCloseDiscardsDropsAndCuts := by
  refine ⟨fun v s ready within isOpen outside => ?clock, fun o c s ready opens closes isOpen outside => ?window,
    fun s isOpen outside => ?advance⟩
  case clock =>
    obtain ⟨t, runs, -, after⟩ := exec_clockSet_of_le ready within
    exact ⟨t, runs, closes_retestWindow (s := s) after isOpen outside (tested_frame.mono (by decide)) (by decide) (.inl (by decide))⟩
  case window =>
    obtain ⟨t, runs, -, after⟩ := exec_windowSet_of_le ready opens closes
    exact ⟨t, runs, closes_retestWindow (s := s) after isOpen outside (tested_frame.mono (by decide)) (by decide) (.inl (by decide))⟩
  case advance =>
    refine ⟨_, exec_timeAdvance s, closes_retestWindow (s := s) (KeepsBut.refl [.link] (s.advanceTested.retestWindow s.heldTogether))
      isOpen outside ((advanceTested_frame s).mono (by decide)) (by decide) (.inr ?_)⟩
    exact (retestWindow_frame s.advanceTested s.heldTogether).same .link (by decide)

end Sys2Proof
end

section
/-! PROOFS. INHIBIT (R92, R93, R94): what an assertion does at one channel, at both in either order, and what a release does; O42. -/

namespace Sys2Proof.Machine

/-! ### A job returned (R93) -/

/-- The entry that the job has in the demand queue once it is returned. -/
def Work.toDemand : Work → List DemandJob
  | .test .demand id _ => [{ span := id, learn := false }]
  | .test .learn id _ => [{ span := id, learn := true }]
  | .test (.scheduled _) _ _ => []
  | .verify _ _ => []

/-- The span of a SCHEDULED job. -/
def Work.scheduledIds : Work → List Nat
  | .test (.scheduled _) id _ => [id]
  | .test .demand _ _ => []
  | .test .learn _ _ => []
  | .verify _ _ => []

/-- The span of a SCHEDULED job, if it returns to the queue of class `k`. -/
def Work.toClass (s : State) (k : Fin 4) : Work → List Nat
  | .test (.scheduled c) id _ => if ((s.findSpan id).map SpanRecord.cls).getD c = k then [id] else []
  | .test .demand _ _ => []
  | .test .learn _ _ => []
  | .verify _ _ => []

section At

variable {s : State} {ch : Letter} {f : Flight} (runs : (s.channels.get ch).activity.flight? = some f)
include runs

theorem demandAt_of_runs : s.demandAt ch = f.work.toDemand := by
  unfold State.demandAt
  rw [runs]
  rcases work : f.work with ⟨_ | _ | _, _, _⟩ | _ <;> simp only [Option.map_some, work] <;> rfl

theorem scheduledAt_of_runs : s.scheduledAt ch = f.work.scheduledIds := by
  unfold State.scheduledAt
  rw [runs]
  rcases work : f.work with ⟨_ | _ | _, _, _⟩ | _ <;> simp only [Option.map_some, work] <;> rfl

theorem scheduledOfClass_of_runs (k : Fin 4) : s.scheduledOfClass ch k = f.work.toClass s k := by
  unfold State.scheduledOfClass
  rw [runs]
  rcases work : f.work with ⟨_ | _ | _, _, _⟩ | _ <;> simp only [Option.map_some, work] <;> rfl

end At

section Rest

variable {s : State} {ch : Letter} (rests : (s.channels.get ch).activity.flight? = none)
include rests

theorem demandAt_of_rest : s.demandAt ch = [] := by rw [State.demandAt, rests]; rfl

theorem scheduledAt_of_rest : s.scheduledAt ch = [] := by rw [State.scheduledAt, rests]; rfl

theorem scheduledOfClass_of_rest (k : Fin 4) : s.scheduledOfClass ch k = [] := by rw [State.scheduledOfClass, rests]; rfl

end Rest

/-- Jobs went to the heads of queues, and spans were missed while no window is open; `demand`, `scheduled` and `missed` name
them. -/
structure Returns (demand : List DemandJob) (scheduled : Fin 4 → List Nat) (missed : List Nat) (s t : State) : Prop where
  demand  : t.sched.demandQueue = demand ++ s.sched.demandQueue
  queues  : ∀ k : Fin 4, t.sched.classQueues.get k =
    if s.timeBase.windowOpen then scheduled k ++ s.sched.classQueues.get k else s.sched.classQueues.get k
  verify  : t.sched.verifyPlaces = s.sched.verifyPlaces
  classes : t.sched.classes = s.sched.classes
  spans   : t.spans = s.spans.map (fun r => if s.timeBase.windowOpen = false ∧ r.id ∈ missed then r.miss else r)
  ids     : t.directory.map Entry.id = s.directory.map Entry.id
  reports : ∀ i, Entry.vacated i ∈ t.directory ↔ Entry.vacated i ∈ s.directory
  stands  : s.timeBase.windowOpen = true → t.directory = s.directory

/-- Nothing is returned. -/
theorem Returns.nothing {s t : State} (sched : ∃ b, t.sched = { s.sched with dispatchCalled := b }) (directory : t.directory = s.directory) :
    Returns [] (fun _ => []) [] s t := by
  obtain ⟨b, sched⟩ := sched
  refine ⟨by rw [sched]; rfl, fun k => ?_, by rw [sched], by rw [sched], ?_, by rw [directory], fun i => by rw [directory],
    fun _ => directory⟩
  · rw [sched, List.nil_append, ite_self]
  · simp only [List.not_mem_nil, and_false, if_false, List.map_id']
    rw [State.spans, directory]
    rfl

theorem returns_headOfDemandQueue (s : State) (d : DemandJob) : Returns [d] (fun _ => []) [] s (s.headOfDemandQueue d) := by
  have spans : s.spans.map (fun r => if s.timeBase.windowOpen = false ∧ r.id ∈ [] then r.miss else r) = s.spans := by
    simp only [List.not_mem_nil, and_false, if_false, List.map_id']
  exact ⟨rfl, fun k => (ite_self _).symm, rfl, rfl, spans.symm, rfl, fun _ => Iff.rfl, fun _ => rfl⟩

theorem returns_returnJob (s : State) (w : Work) :
    Returns w.toDemand (w.toClass s) w.scheduledIds s (s.returnJob w) := by
  cases w with
  | verify own coil => exact .nothing ⟨_, rfl⟩ rfl
  | test kind id revision =>
    cases kind with
    | demand => exact returns_headOfDemandQueue ..
    | learn => exact returns_headOfDemandQueue ..
    | scheduled c =>
      cases isOpen : s.timeBase.windowOpen with
      | true =>
        have is : s.returnJob (.test (.scheduled c) id revision) = s.requeueScheduled c id := if_pos isOpen
        rw [is]
        refine ⟨rfl, fun k => ?_, rfl, rfl, ?_, rfl, fun _ => Iff.rfl, fun _ => rfl⟩
        · rw [if_pos isOpen]
          change (s.sched.classQueues.set (((s.findSpan id).map SpanRecord.cls).getD c) (id :: _)).get k =
            (if ((s.findSpan id).map SpanRecord.cls).getD c = k then [id] else []) ++ s.sched.classQueues.get k
          by_cases same : ((s.findSpan id).map SpanRecord.cls).getD c = k
          · rw [if_pos same, same, Quad.get_set_self]
            rfl
          · rw [if_neg same, Quad.get_set_ne _ (Ne.symm same)]
            rfl
        · simp only [isOpen, Bool.true_eq_false, false_and, if_false, List.map_id']
          rfl
      | false =>
        have is : s.returnJob (.test (.scheduled c) id revision) = s.modifySpan id SpanRecord.miss := if_neg (by simp [isOpen])
        rw [is]
        refine ⟨rfl, fun k => ?_, rfl, rfl, ?_, ids_modifySpan fun q same => same, vacated_mem_modifySpan, fun opened => ?_⟩
        · rw [if_neg (by simp [isOpen])]
          rfl
        · rw [spans_modifySpan]
          simp [isOpen, Work.scheduledIds]
        · cases isOpen.symm.trans opened

/-! ### An assertion at one channel (R92) -/

/-- What an assertion of INHIBIT leaves of one channel. -/
structure InhibitsAt (ch : Letter) (u v : State) : Prop where
  channel : v.channels.get ch = { u.channels.get ch with
    activity := .inhibited
    accumulator := if (u.channels.get ch).activity.isBusy then [] else (u.channels.get ch).accumulator
    mark := (u.channels.get ch).mark || !(u.channels.get ch).activity.isInhibited }
  other   : ∀ m : Letter, m ≠ ch → v.channels.get m = u.channels.get m
  banks   : ∀ l : Letter, v.banks.get l =
    if (u.banks.get l).holder = some ch ∧ (u.channels.get ch).activity.isBusy = true then { u.banks.get l with holder := none }
    else u.banks.get l
  freed   : ∀ (i : Fin 4) h f, u.buffers.get i = some h → (u.channels.get ch).activity.flight? = some f →
    h.holder = f.work.id → v.buffers.get i = none
  kept    : ∀ i : Fin 4, (∀ h f, u.buffers.get i = some h → (u.channels.get ch).activity.flight? = some f →
    h.holder ≠ f.work.id) → v.buffers.get i = u.buffers.get i
  called  : v.sched.dispatchCalled = (u.sched.dispatchCalled || (u.channels.get ch).activity.isBusy)
  returns : Returns (u.demandAt ch) (u.scheduledOfClass ch) (u.scheduledAt ch) u v

section Channel

variable {u : State} {ch : Letter}

/-- A channel without a job gives up nothing. -/
theorem inhibitsAt_of_rest {v : State} (rests : (u.channels.get ch).activity.flight? = none)
    (channel : v.channels.get ch = { u.channels.get ch with
      activity := .inhibited, mark := (u.channels.get ch).mark || !(u.channels.get ch).activity.isInhibited })
    (other : ∀ m : Letter, m ≠ ch → v.channels.get m = u.channels.get m) (banks : v.banks = u.banks)
    (buffers : v.buffers = u.buffers) (sched : v.sched = u.sched) (directory : v.directory = u.directory) : InhibitsAt ch u v := by
  have free : (u.channels.get ch).activity.isBusy = false := by
    cases activity : (u.channels.get ch).activity with
    | idle => rfl
    | inhibited => rfl
    | busy stage f => rw [activity] at rests; cases rests
  refine ⟨by rw [channel, free]; rfl, other, fun l => ?_, fun i h f _ runs => ?_, fun i _ => by rw [buffers], ?_, ?_⟩
  · rw [banks, free, if_neg (by simp)]
  · cases rests.symm.trans runs
  · rw [sched, free, Bool.or_false]
  · have nothing := Returns.nothing (s := u) (t := v) ⟨u.sched.dispatchCalled, sched⟩ directory
    have classes : u.scheduledOfClass ch = fun _ => [] := funext (scheduledOfClass_of_rest rests)
    rw [demandAt_of_rest rests, scheduledAt_of_rest rests, classes]
    exact nothing

theorem inhibitChannel_of_busy {stage : Stage} {f : Flight} (busy : (u.channels.get ch).activity = .busy stage f) :
    u.inhibitChannel ch = ((u.dropFlight ch f .inhibited).markChannel ch).returnJob f.work := by
  simp only [State.inhibitChannel, busy]

/-- A channel at work gives up its job, which returns. -/
theorem inhibitsAt_of_busy {stage : Stage} {f : Flight} (busy : (u.channels.get ch).activity = .busy stage f) :
    InhibitsAt ch u (u.inhibitChannel ch) := by
  have runs : (u.channels.get ch).activity.flight? = some f := by rw [busy]; rfl
  have works : (u.channels.get ch).activity.isBusy = true := by rw [busy]; rfl
  have awake : (u.channels.get ch).activity.isInhibited = false := by rw [busy]; rfl
  have gives := givesUp_dropFlight u ch f .inhibited
  obtain ⟨d, isD⟩ : ∃ d, d = (u.dropFlight ch f .inhibited).markChannel ch := ⟨_, rfl⟩
  have channels : d.channels = u.channels.set ch { u.channels.get ch with activity := .inhibited, accumulator := [], mark := true } := by
    rw [isD]
    change (u.dropFlight ch f .inhibited).channels.set ch _ = _
    rw [gives.channels, Pair.set_set, Pair.get_set_self]
  have banks (l : Letter) : d.banks.get l =
      if (u.banks.get l).holder = some ch then { u.banks.get l with holder := none } else u.banks.get l := by
    rw [isD]
    exact gives.banks l
  have buffers (i : Fin 4) : d.buffers.get i = (u.buffers.get i).filter (fun h => h.holder != f.work.id) := by
    rw [isD]
    exact gives.buffers i
  have returned := returns_returnJob d f.work
  have called : (d.returnJob f.work).sched.dispatchCalled = true := by
    have before : d.sched.dispatchCalled = true := by rw [isD]; rfl
    unfold State.returnJob
    repeat' split
    all_goals first | exact before | rfl
  have returns : Returns f.work.toDemand (f.work.toClass u) f.work.scheduledIds u (d.returnJob f.work) := by
    rw [isD] at returned ⊢
    obtain ⟨demand, queues, verify, classes, spans, ids, reports, stands⟩ := returned
    exact ⟨demand, queues, verify, classes, spans, ids, reports, stands⟩
  have frame := returnJob_frame d f.work
  rw [inhibitChannel_of_busy busy, ← isD]
  have sameChannels : (d.returnJob f.work).channels = d.channels := frame.same .channels (by decide)
  have sameBanks : (d.returnJob f.work).banks = d.banks := frame.same .banks (by decide)
  have sameBuffers : (d.returnJob f.work).buffers = d.buffers := frame.same .buffers (by decide)
  refine ⟨?_, fun m differ => ?_, fun l => ?_, fun i h g held runs' mine => ?_, fun i others => ?_, ?_, ?_⟩
  · rw [sameChannels, channels, Pair.get_set_self, works, awake, if_pos rfl, Bool.not_false, Bool.or_true]
  · rw [sameChannels, channels, Pair.get_set_ne _ differ]
  · rw [sameBanks, banks]
    simp only [works, and_true]
  · obtain rfl : f = g := Option.some.inj (runs.symm.trans runs')
    rw [sameBuffers, buffers, held, Option.filter_some, if_neg (by simp [mine])]
  · rw [sameBuffers, buffers]
    cases held : u.buffers.get i with
    | none => rfl
    | some h => rw [Option.filter_some, if_pos (by simpa using others h f held runs)]
  · rw [called, works, Bool.or_true]
  · have toClass : u.scheduledOfClass ch = f.work.toClass u := funext (scheduledOfClass_of_runs runs)
    rw [demandAt_of_runs runs, scheduledAt_of_runs runs, toClass]
    exact returns

theorem inhibitsAt_inhibitChannel (u : State) (ch : Letter) : InhibitsAt ch u (u.inhibitChannel ch) := by
  cases activity : (u.channels.get ch).activity with
  | busy stage f => exact inhibitsAt_of_busy activity
  | idle =>
    have is : u.inhibitChannel ch = (u.setActivity ch .inhibited).markChannel ch := by simp only [State.inhibitChannel, activity]
    have channels : (u.inhibitChannel ch).channels =
        u.channels.set ch { u.channels.get ch with activity := .inhibited, mark := true } := by
      rw [is]
      change (u.channels.set ch _).set ch { (u.channels.set ch _).get ch with mark := true } = _
      rw [Pair.set_set, Pair.get_set_self]
    refine inhibitsAt_of_rest (by rw [activity]; rfl) ?_ (fun m differ => ?_) (by rw [is]; rfl) (by rw [is]; rfl) (by rw [is]; rfl)
      (by rw [is]; rfl)
    · rw [channels, Pair.get_set_self, activity]
      simp [Activity.isInhibited]
    · rw [channels, Pair.get_set_ne _ differ]
  | inhibited =>
    have is : u.inhibitChannel ch = u := by simp only [State.inhibitChannel, activity]
    rw [is]
    refine inhibitsAt_of_rest (by rw [activity]; rfl) ?_ (fun _ _ => rfl) rfl rfl rfl rfl
    have asleep : (u.channels.get ch).activity.isInhibited = true := by rw [activity]; rfl
    rw [asleep, Bool.not_true, Bool.or_false, ← activity]

end Channel

/-! ### Both channels -/

section Both

variable {s u v : State} {first second : Letter} (differ : first ≠ second) (at1 : InhibitsAt first s u) (at2 : InhibitsAt second u v)
  (timeBase : u.timeBase = s.timeBase)

include differ at1 at2

theorem inhibits_channels (ch : Letter) : v.channels.get ch = { s.channels.get ch with
    activity := .inhibited
    accumulator := if (s.channels.get ch).activity.isBusy then [] else (s.channels.get ch).accumulator
    mark := (s.channels.get ch).mark || !(s.channels.get ch).activity.isInhibited } := by
  by_cases isFirst : ch = first
  · subst isFirst
    rw [at2.other _ differ, at1.channel]
  · obtain rfl : ch = second := Letter.eq_other isFirst differ.symm
    rw [at2.channel, at1.other _ isFirst]

theorem inhibits_released (l ch : Letter) (holds : (s.banks.get l).holder = some ch)
    (works : (s.channels.get ch).activity.isBusy = true) : v.banks.get l = { s.banks.get l with holder := none } := by
  by_cases isFirst : ch = first
  · subst isFirst
    have first : u.banks.get l = { s.banks.get l with holder := none } := (at1.banks l).trans (if_pos ⟨holds, works⟩)
    rw [at2.banks, first, if_neg (by rintro ⟨⟨⟩, -⟩)]
  · obtain rfl : ch = second := Letter.eq_other isFirst differ.symm
    have first : u.banks.get l = s.banks.get l :=
      (at1.banks l).trans (if_neg fun ⟨other, _⟩ => isFirst (Option.some.inj (holds.symm.trans other)))
    rw [at2.banks, first, at1.other _ isFirst, if_pos ⟨holds, works⟩]

theorem inhibits_unreleased (l : Letter) (idle : ∀ ch, (s.banks.get l).holder = some ch → (s.channels.get ch).activity.isBusy = false) :
    v.banks.get l = s.banks.get l := by
  have rests (ch : Letter) : ¬((s.banks.get l).holder = some ch ∧ (s.channels.get ch).activity.isBusy = true) :=
    fun ⟨holds, works⟩ => Bool.eq_false_iff.mp (idle ch holds) works
  have first : u.banks.get l = s.banks.get l := (at1.banks l).trans (if_neg (rests _))
  rw [at2.banks, first, at1.other _ differ.symm, if_neg (rests _)]

theorem inhibits_freed (i : Fin 4) (h : Holding) (ch : Letter) (f : Flight) (held : s.buffers.get i = some h)
    (runs : (s.channels.get ch).activity.flight? = some f) (mine : h.holder = f.work.id) : v.buffers.get i = none := by
  have stays (gone : u.buffers.get i = none) : v.buffers.get i = none :=
    (at2.kept i fun h' _ held' => by cases gone.symm.trans held').trans gone
  by_cases isFirst : ch = first
  · subst isFirst
    exact stays (at1.freed i h f held runs mine)
  · obtain rfl : ch = second := Letter.eq_other isFirst differ.symm
    by_cases other : ∃ g, (s.channels.get first).activity.flight? = some g ∧ h.holder = g.work.id
    · obtain ⟨g, runs', mine'⟩ := other
      exact stays (at1.freed i h g held runs' mine')
    · have still : u.buffers.get i = some h := by
        refine (at1.kept i fun h' g held' runs' mine' => other ⟨g, runs', ?_⟩).trans held
        rw [Option.some.inj (held.symm.trans held')]
        exact mine'
      exact at2.freed i h f still (by rw [at1.other _ isFirst]; exact runs) mine

theorem inhibits_kept (i : Fin 4) (others : ∀ h ch f, s.buffers.get i = some h →
    (s.channels.get ch).activity.flight? = some f → h.holder ≠ f.work.id) : v.buffers.get i = s.buffers.get i := by
  have first : u.buffers.get i = s.buffers.get i := at1.kept i fun h f held runs => others h first f held runs
  refine (at2.kept i fun h f held runs => ?_).trans first
  rw [at1.other _ differ.symm] at runs
  exact others h second f (first ▸ held) runs

theorem inhibits_called : v.sched.dispatchCalled =
    (s.sched.dispatchCalled || (s.channels.get first).activity.isBusy || (s.channels.get second).activity.isBusy) := by
  rw [at2.called, at1.called, at1.other _ differ.symm]

include timeBase

theorem inhibits_returns : Returns (s.demandAt second ++ s.demandAt first)
    (fun k => s.scheduledOfClass second k ++ s.scheduledOfClass first k) (s.scheduledAt first ++ s.scheduledAt second) s v := by
  have same : u.channels.get second = s.channels.get second := at1.other _ differ.symm
  have demand : u.demandAt second = s.demandAt second := by rw [State.demandAt, same]; rfl
  have scheduled : u.scheduledAt second = s.scheduledAt second := by rw [State.scheduledAt, same]; rfl
  have ofClass (isOpen : s.timeBase.windowOpen = true) (k : Fin 4) : u.scheduledOfClass second k = s.scheduledOfClass second k := by
    have directory : u.directory = s.directory := at1.returns.stands isOpen
    have found (id : Nat) : u.findSpan id = s.findSpan id := by
      unfold State.findSpan State.spans
      rw [directory]
    simp only [State.scheduledOfClass, same, found]
  have r1 := at1.returns
  have r2 := at2.returns
  refine ⟨?_, fun k => ?_, r2.verify.trans r1.verify, r2.classes.trans r1.classes, ?_, r2.ids.trans r1.ids,
    fun i => (r2.reports i).trans (r1.reports i), fun isOpen => ?_⟩
  · rw [r2.demand, r1.demand, demand, List.append_assoc]
  · rw [r2.queues, r1.queues, timeBase]
    by_cases isOpen : s.timeBase.windowOpen = true
    · rw [if_pos isOpen, if_pos isOpen, if_pos isOpen, ofClass isOpen, List.append_assoc]
    · rw [if_neg isOpen, if_neg isOpen, if_neg isOpen]
  · rw [r2.spans, r1.spans, List.map_map, timeBase, scheduled]
    refine List.map_congr_left fun r _ => ?_
    by_cases closed : s.timeBase.windowOpen = false
    · by_cases here : r.id ∈ s.scheduledAt first <;> by_cases there : r.id ∈ s.scheduledAt second <;>
        simp [closed, here, there, SpanRecord.miss]
    · simp [closed]
  · rw [r2.stands (by rw [timeBase]; exact isOpen), r1.stands isOpen]

end Both

/-! ### A release (R94) -/

theorem released_eq (c : Channel) :
    c.released = if c.activity.isInhibited then { c with activity := .idle, mark := true } else c := by
  unfold Channel.released
  split
  next asleep => rw [asleep]; rfl
  next idle => rw [idle]; rfl
  next busy => rw [busy]; rfl

end Sys2Proof.Machine

namespace Sys2Proof

open Machine in
/-- Settles O42: an assertion channel by channel, in either order, and a release. -/
theorem inhibitStopsAndFreesTheChannels : Obligations.InhibitStopsAndFreesTheChannels := by
  refine ⟨fun s => ?asserted, fun s asserted => ?released⟩
  case released =>
    refine ⟨_, if_pos asserted, keepsBut_of_all fun p => by cases p <;> first | (left; simp; done) | exact .inr rfl, rfl, rfl, fun ch => ?_⟩
    refine (Pair.get_map ..).trans (released_eq _)
  case asserted =>
    obtain ⟨n, first, second, differ, runs⟩ : ∃ (n : Nat) (first second : Letter), first ≠ second ∧
        exec .inhibitAsserted s = .next ((({ s with
          inputs := { s.inputs with inhibit := true }, draws := n } : State).inhibitChannel first).inhibitChannel second) := by
      change ∃ (n : Nat) (first second : Letter), first ≠ second ∧ execInhibitAsserted s = _
      unfold execInhibitAsserted State.eitherOrder
      dsimp only
      split
      · split
        · exact ⟨s.draws + 1, .B, .A, by decide, rfl⟩
        · exact ⟨s.draws + 1, .A, .B, by decide, rfl⟩
      · exact ⟨s.draws, .A, .B, by decide, rfl⟩
    obtain ⟨u, isU⟩ : ∃ u : State, u = { s with inputs := { s.inputs with inhibit := true }, draws := n } := ⟨_, rfl⟩
    rw [← isU] at runs
    have frame1 := inhibitChannel_frame u first
    have frame2 := inhibitChannel_frame (u.inhibitChannel first) second
    have at1 := inhibitsAt_inhibitChannel u first
    have at2 := inhibitsAt_inhibitChannel (u.inhibitChannel first) second
    have returns := inhibits_returns differ at1 at2 (frame1.same .timeBase (by decide))
    have channels := inhibits_channels differ at1 at2
    have released := inhibits_released differ at1 at2
    have unreleased := inhibits_unreleased differ at1 at2
    have freed := inhibits_freed differ at1 at2
    have kept := inhibits_kept differ at1 at2
    have called := inhibits_called differ at1 at2
    have frame := frame1.trans frame2
    have inputs : ((u.inhibitChannel first).inhibitChannel second).inputs = u.inputs := frame.same .inputs (by decide)
    obtain ⟨t, isT⟩ : ∃ t, t = (u.inhibitChannel first).inhibitChannel second := ⟨_, rfl⟩
    rw [← isT] at runs returns channels released unreleased freed kept called frame inputs
    subst isU
    have before : KeepsBut [.inputs, .draws] s { s with inputs := { s.inputs with inhibit := true }, draws := n } :=
      keepsBut_of_all fun p => by cases p <;> first | (left; simp; done) | exact .inr rfl
    refine ⟨t, first, second, runs, differ, (before.mono (by decide)).trans (frame.mono (by decide)), inputs, channels, released,
      unreleased, freed, kept, returns.demand, fun k => ?_, returns.verify, returns.classes, ?_, ?_, returns.ids, returns.reports⟩
    · exact (returns.queues k)
    · rw [called]
      cases first <;> cases second <;> first | exact absurd rfl differ | rfl | skip
      exact Bool.or_right_comm ..
    · rw [returns.spans]
      refine List.map_congr_left fun r _ => ?_
      cases first <;> cases second <;> first | exact absurd rfl differ | rfl | skip
      simp only [List.mem_append, or_comm]
      rfl

end Sys2Proof
end

section
/-! PROOFS. The analysis engine (R101 to R105) and the judging of results (R120 to R137); O52, O53, O54, O55 and O56. -/

namespace Sys2Proof.Machine

/-! ### The completion of an analysis -/

/-- What every completion leaves, and `u` is what the disposition of the result left. -/
theorem completes {s u : State} {a : Analysis} {parts : List Part} (current : s.engine.current = some a)
    (disposes : (s.reach a.due).dispose a = u) (frame : KeepsBut parts (s.reach a.due) u) :
    ∃ t, exec .analysisCompletion s = .next t ∧ Finishes a s t ∧ KeepsBut ([.now, .buffers, .sched, .engine] ++ parts) s t ∧
      KeepsBut [.buffers, .sched, .engine] u t := by
  have disposed := dispose_frame (s.reach a.due) a
  rw [disposes] at disposed
  have ends := endAnalysis_frame u a
  have reached : KeepsBut [.now] s (s.reach a.due) :=
    keepsBut_of_all fun p => by cases p <;> first | (left; simp; done) | exact .inr rfl
  have runs : exec .analysisCompletion s = .next (u.endAnalysis a) := by
    change execAnalysisCompletion s = _
    simp only [execAnalysisCompletion, current, disposes]
  refine ⟨_, runs, finishes_endAnalysis s u a (disposed.same .buffers (by decide)) (disposed.same .sched (by decide))
    (disposed.same .engine (by decide)) (disposed.same .now (by decide)), ?_, ends⟩
  exact ((reached.mono (by simp)).trans (frame.mono (by simp +contextual))).trans (ends.mono (by simp))

section Test

variable {s : State} {a : Analysis} {kind : TestKind} {id rev : Nat} {r : SpanRecord} (directory : DirectoryLaw s)
  (work : a.flight.work = .test kind id rev) (here : r ∈ s.spans) (named : r.id = id)
include directory work here named

theorem dispose_of_test (n : Nat) : (s.reach n).dispose a = (s.reach n).disposeSpan a kind id rev r := by
  have found : (s.reach n).findSpan id = some r := named ▸ findSpan_of_mem directory here
  simp only [State.dispose, work, found]

theorem dispose_of_retiring (retiring : r.state = .retiring) (n : Nat) : (s.reach n).dispose a = (s.reach n).becomeEmpty id := by
  rw [dispose_of_test directory work here named, State.disposeSpan, if_pos retiring]

variable (kept : r.state ≠ .retiring)
include kept

theorem dispose_of_cancelled (cancelled : a.flight.cancelled = true) (n : Nat) : (s.reach n).dispose a = s.reach n := by
  rw [dispose_of_test directory work here named, State.disposeSpan, if_neg kept, if_pos cancelled]

variable (runs : a.flight.cancelled = false)
include runs

theorem dispose_of_stale (stale : r.revision ≠ rev) (n : Nat) :
    (s.reach n).dispose a = (s.reach n).endWithOutcome a.flight.work .stale := by
  rw [dispose_of_test directory work here named, State.disposeSpan, if_neg kept, if_neg (by simp [runs]), if_pos stale]

theorem dispose_of_current {c : SpanCopy} (current : r.revision = rev) (subject : a.input.subject = .span c) (n : Nat) :
    (s.reach n).dispose a = (s.reach n).judgeSpan id kind a c := by
  rw [dispose_of_test directory work here named, State.disposeSpan, if_neg kept, if_neg (by simp [runs]),
    if_neg (by simp [current])]
  simp only [subject]

end Test

/-- A change of one span's record, from before the clock moves to after the engine goes on. -/
theorem SpanBecomes.of_completion {s u t : State} {id n : Nat} {f : SpanRecord → SpanRecord} (h : SpanBecomes id f (s.reach n) u)
    (after : KeepsBut [.buffers, .sched, .engine] u t) : SpanBecomes id f s t :=
  (h.congr_left (u := s) rfl).congr_right (after.same .directory (by decide))

/-! ### Outcomes written (R21, R22) -/

theorem withOutcome_clean (w e : Nat) (q : SpanRecord) : q.withOutcome .clean w (some e) =
    { q with lastOutcome := .clean, lastWindow := w, lastEnd := some e, missed := false, mark := true } := rfl

theorem withOutcome_outcomeOf (findings : List Finding) (w e : Nat) (q : SpanRecord) :
    q.withOutcome (outcomeOf findings) w (some e) =
      { q with
        lastOutcome := if findings = [] then .clean else .findings
        lastWindow := w, lastEnd := some e, missed := false, mark := true } := by
  unfold outcomeOf SpanRecord.withOutcome
  split <;> rfl

theorem spanBecomes_writeOutcome (s : State) (id : Nat) (o : LastOutcome) (e : Option Nat) :
    SpanBecomes id (SpanRecord.withOutcome o s.timeBase.windowNumber e) s (s.writeOutcome id o e) :=
  spanBecomes_modifySpan fun _ same => same

/-- Findings dropped one at a time, counted up to 255 (R151). -/
theorem dropFindings_eq (n : Nat) (q : SpanRecord) : q.dropFindings n =
    { q with
      overflow := q.overflow || n != 0
      dropped := if n = 0 then q.dropped else min 255 (q.dropped + n)
      mark := q.mark || n != 0 } := by
  induction n generalizing q with
  | zero => simp [SpanRecord.dropFindings]
  | succ n ih =>
    have counted : (if n = 0 then satSucc 255 q.dropped else min 255 (satSucc 255 q.dropped + n)) =
        min 255 (q.dropped + (n + 1)) := by
      unfold satSucc
      split <;> split <;> omega
    rw [SpanRecord.dropFindings, ih]
    simp [SpanRecord.dropFinding, counted]

/-! ### A test judged (R120, R132, R133) -/

section Judge

variable (s : State) (id : Nat) (a : Analysis) (c : SpanCopy)

theorem judgeSpan_of_test {kind : TestKind} (test : kind ≠ .learn) : s.judgeSpan id kind a c =
    if c.landmarks = [] then s.judgeBare id (extract a.input c) else s.judgeBaseline id a.flight c (extract a.input c) := by
  cases kind with
  | learn => exact absurd rfl test
  | demand => rfl
  | scheduled cls => rfl

theorem spanBecomes_applyResult (r : Result) :
    SpanBecomes r.span (SpanRecord.dropFindings (s.table.apply r).dropped) s (s.applyResult r) :=
  (spanBecomes_modifySpan (s := { s with table := (s.table.apply r).table }) fun q same => by
    rw [dropFindings_eq]
    exact same).congr_left rfl

/-! ### A learn judged (R134, R135, R39 to R41) -/

theorem adoptList_of_fits {l : List Landmark} (fits : l.length ≤ s.poolFree) (e : Nat) : s.adoptList id l e =
    ((s.writeOutcome id .clean (some e)).modifySpan id (SpanRecord.adopt l)).retireConditions id := if_pos fits

theorem adoptList_of_short {l : List Landmark} (short : s.poolFree < l.length) (e : Nat) : s.adoptList id l e =
    (s.writeOutcome id .clean (some e)).modifySpan id SpanRecord.endLearn := if_neg (Nat.not_le.mpr short)

theorem spanBecomes_adoptList {l : List Landmark} (fits : l.length ≤ s.poolFree) (e : Nat) :
    SpanBecomes id (fun q => { q with
      state := if q.resume = .held then .held else .active
      landmarks := l, revision := (q.revision + 1) % 65536
      lastOutcome := .clean, lastWindow := s.timeBase.windowNumber
      lastEnd := some e, missed := false, mark := true }) s (s.adoptList id l e) := by
  have written := spanBecomes_writeOutcome s id .clean (some e)
  have adopted : SpanBecomes id (SpanRecord.adopt l) (s.writeOutcome id .clean (some e))
      ((s.writeOutcome id .clean (some e)).modifySpan id (SpanRecord.adopt l)) := spanBecomes_modifySpan fun _ same => same
  rw [adoptList_of_fits s id fits]
  exact ((written.trans adopted fun _ same => same).congr_fun fun _ _ _ => rfl).congr_right rfl

theorem spanBecomes_adoptList_of_short {l : List Landmark} (short : s.poolFree < l.length) (e : Nat) :
    SpanBecomes id (fun q => { q with
      state := if q.state = .learning then q.resume else q.state
      lastOutcome := .clean, lastWindow := s.timeBase.windowNumber
      lastEnd := some e, missed := false, mark := true }) s (s.adoptList id l e) := by
  have written := spanBecomes_writeOutcome s id .clean (some e)
  have ended : SpanBecomes id SpanRecord.endLearn (s.writeOutcome id .clean (some e))
      ((s.writeOutcome id .clean (some e)).modifySpan id SpanRecord.endLearn) :=
    spanBecomes_modifySpan fun q same => by
      unfold SpanRecord.endLearn
      split <;> exact same
  rw [adoptList_of_short s id short]
  refine (written.trans ended fun _ same => same).congr_fun fun q _ _ => ?_
  simp only [Function.comp, withOutcome_clean, SpanRecord.endLearn]
  by_cases learning : q.state = .learning <;> simp [learning]

end Judge

/-! ### The trim of a channel (R136, R137) -/

theorem clampInt_eq (lo hi x : Int) (ordered : lo ≤ hi) : clampInt lo hi x = max lo (min hi x) := by
  unfold clampInt
  split
  · omega
  · split <;> omega

theorem dispose_of_verify {s : State} {a : Analysis} {own : Letter} {coil : Coil} (work : a.flight.work = .verify own coil)
    (runs : a.flight.cancelled = false) : s.dispose a = s.judgeVerify a coil := by
  simp only [State.dispose, work, if_neg (Bool.eq_false_iff.mp runs)]

theorem verifyResult_of_wide {coil : Coil} {spacing e : Nat} {trim : Int} (wide : 256 < (timingError coil spacing e).natAbs) :
    verifyResult coil spacing (some e) trim = (trim, true) := if_pos wide

theorem verifyResult_of_near {coil : Coil} {spacing e : Nat} {trim : Int} (near : (timingError coil spacing e).natAbs ≤ 256) :
    verifyResult coil spacing (some e) trim = (max (-64) (min 63 (-timingError coil spacing e)), false) := by
  rw [← clampInt_eq _ _ _ (by decide)]
  exact if_neg (Nat.not_lt.mpr near)

end Sys2Proof.Machine

namespace Sys2Proof

open Machine in
/-- Settles O52: what a take copies is read of the state before it. -/
theorem analysisTakeCopiesTheInput : Obligations.AnalysisTakeCopiesTheInput := by
  intro f rest levels s idle queue traced subject directory
  have takeable : Takeable s f := by
    refine ⟨?_, fun kind id rev work => ?_⟩
    · rw [← Option.isSome_map (f := Trace.levels), traced]
      rfl
    · obtain ⟨r, here, rfl, kept⟩ := subject kind id rev work
      exact ⟨r, findSpan_of_mem directory here, kept⟩
  obtain ⟨a, engine, taken⟩ := taken_takeHead idle queue takeable
  refine ⟨s.takeHead, a, rfl, takeHead_frame s, engine, taken.flight, ?_, taken.secondary, taken.snapshot, taken.trim, taken.due,
    fun kind id rev work r here named => ?_, taken.coil⟩
  · exact Option.some.inj (taken.primary.symm.trans traced)
  · obtain ⟨r', c, found, copied, fields, landmarks, -⟩ := taken.span kind id rev work
    obtain rfl : r = r' := Option.some.inj ((findSpan_of_mem directory here).symm.trans (named ▸ found))
    exact ⟨c, copied, fields, landmarks⟩

open Machine in
/-- Settles O53, disposition by disposition. -/
theorem analysisCompletionDiscardsOrFindsStale : Obligations.AnalysisCompletionDiscardsOrFindsStale := by
  intro a kind id rev r s directory current work here named
  refine ⟨fun retiring => ?retiring, fun kept cancelled => ?cancelled, fun kept live stale => ?stale⟩
  case retiring =>
    obtain ⟨t, runs, finishes, frame, after⟩ := completes current
      (dispose_of_retiring directory work here named retiring a.due) (becomeEmpty_frame ..)
    exact ⟨t, runs, finishes, (emptied_becomeEmpty (s.reach a.due) id).congr rfl rfl (after.same .directory (by decide))
      (after.same .table (by decide)), frame.mono (by decide)⟩
  case cancelled =>
    obtain ⟨t, runs, finishes, frame, -⟩ := completes current
      (dispose_of_cancelled directory work here named kept cancelled a.due) (KeepsBut.refl [] _)
    exact ⟨t, runs, finishes, frame.mono (by decide)⟩
  case stale =>
    obtain ⟨t, runs, finishes, frame, after⟩ := completes current
      (dispose_of_stale directory work here named kept live stale a.due) (endWithOutcome_frame ..)
    have ended := ended_endWithOutcome (s.reach a.due) a.flight.work (o := .stale) (by decide) (by decide)
    rw [work] at after ended
    exact ⟨t, runs, finishes, SpanBecomes.of_completion ended after, frame.mono (by decide)⟩

open Machine in
/-- Settles O54, without a baseline and with one. -/
theorem analysisCompletionJudgesATest : Obligations.AnalysisCompletionJudgesATest := by
  intro a kind id rev r c s directory current work test here named kept live revision subject
  have judged := dispose_of_current directory work here named kept live revision subject a.due
  rw [judgeSpan_of_test _ _ _ _ test] at judged
  refine ⟨fun bare => ?bare, fun baseline => ?baseline⟩
  case bare =>
    rw [if_pos bare] at judged
    have written : KeepsBut [.directory] (s.reach a.due) ((s.reach a.due).judgeBare id (extract a.input c)) := modifySpan_frame ..
    obtain ⟨t, runs, finishes, frame, after⟩ := completes current judged written
    have becomes := spanBecomes_writeOutcome (s.reach a.due) id .clean (some (extract a.input c).endDistance)
    exact ⟨t, runs, finishes, frame.mono (by decide), becomes.of_completion after⟩
  case baseline =>
    rw [if_neg baseline] at judged
    obtain ⟨findings, isFindings⟩ : ∃ l, l = findingList a.flight.snapshot.guard c (extract a.input c)
      ((a.flight.recorded.map Recorded.degraded).getD false) := ⟨_, rfl⟩
    obtain ⟨w, isW⟩ : ∃ w, w = (s.reach a.due).writeOutcome id (outcomeOf findings) (some (extract a.input c).endDistance) :=
      ⟨_, rfl⟩
    have is : (s.reach a.due).judgeBaseline id a.flight c (extract a.input c) =
        w.applyResult (resultOf s id c (extract a.input c) findings) := by
      rw [isW, isFindings]
      rfl
    have written : KeepsBut [.directory] (s.reach a.due) w := isW ▸ modifySpan_frame ..
    have table : w.table = s.table := written.same .table (by decide)
    rw [is] at judged
    obtain ⟨t, runs, finishes, frame, after⟩ := completes current judged
      ((written.mono (by decide)).trans (applyResult_frame w (resultOf s id c (extract a.input c) findings)))
    refine ⟨t, findings, _, runs, finishes, frame.mono (by decide), isFindings, rfl, ?_, ?_⟩
    · have applied : t.table = _ := after.same .table (by decide)
      rw [applied, ← table]
      rfl
    · have first : SpanBecomes id _ (s.reach a.due) w := isW ▸ spanBecomes_writeOutcome ..
      have second := spanBecomes_applyResult w (resultOf s id c (extract a.input c) findings)
      rw [table] at second
      refine ((first.trans second fun _ same => same).congr_fun fun q _ _ => ?_).of_completion after
      simp only [Function.comp, withOutcome_outcomeOf, dropFindings_eq, Bool.true_or]
      rfl

open Machine in
/-- Settles O55, ending by ending. -/
theorem learnAdoptsTheListOrEnds : Obligations.LearnAdoptsTheListOrEnds := by
  intro a id rev r c s directory current work here named learning live revision subject
  have kept : r.state ≠ .retiring := by
    rw [learning]
    decide
  have judged := dispose_of_current directory work here named kept live revision subject a.due
  have learned : (s.reach a.due).judgeSpan id .learn a c = (s.reach a.due).judgeLearn id a.flight.work (extract a.input c) := rfl
  rw [learned, State.judgeLearn] at judged
  refine ⟨fun beyond => ?noEnd, fun within fits => ?adopts, fun within short => ?short⟩
  case noEnd =>
    rw [if_pos beyond] at judged
    obtain ⟨t, runs, finishes, frame, after⟩ := completes current judged (endWithOutcome_frame ..)
    have ended := ended_endWithOutcome (s.reach a.due) a.flight.work (o := .noEnd) (by decide) (by decide)
    rw [work] at after ended
    exact ⟨t, runs, finishes, frame.mono (by decide), SpanBecomes.of_completion ended after⟩
  all_goals
    rw [if_neg (by simp [within])] at judged
    have written : KeepsBut [.directory] (s.reach a.due)
      ((s.reach a.due).writeOutcome id .clean (some (extract a.input c).endDistance)) := modifySpan_frame ..
  case adopts =>
    have is := adoptList_of_fits (s.reach a.due) id fits (extract a.input c).endDistance
    have stored : KeepsBut [.directory, .table] (s.reach a.due)
        ((s.reach a.due).adoptList id (learnedList (extract a.input c)) (extract a.input c).endDistance) := by
      rw [is]
      exact ((written.trans (modifySpan_frame ..)).mono (by decide)).trans ((retireConditions_frame ..).mono (by decide))
    obtain ⟨t, runs, finishes, frame, after⟩ := completes current judged stored
    refine ⟨t, runs, finishes, frame.mono (by decide), (spanBecomes_adoptList (s.reach a.due) id fits _).of_completion after, ?_⟩
    have table : t.table = _ := after.same .table (by decide)
    rw [table, is]
    rfl
  case short =>
    have is := adoptList_of_short (s.reach a.due) id short (extract a.input c).endDistance
    have stored : KeepsBut [.directory] (s.reach a.due)
        ((s.reach a.due).adoptList id (learnedList (extract a.input c)) (extract a.input c).endDistance) := by
      rw [is]
      exact written.trans (modifySpan_frame ..)
    obtain ⟨t, runs, finishes, frame, after⟩ := completes current judged stored
    exact ⟨t, runs, finishes, frame.mono (by decide), (spanBecomes_adoptList_of_short (s.reach a.due) id short _).of_completion after⟩

open Machine in
/-- Settles O56, by the timing error. -/
theorem verifyWritesTheTrim : Obligations.VerifyWritesTheTrim := by
  intro a own coil s current work live
  have set : KeepsBut [.channels] (s.reach a.due) ((s.reach a.due).judgeVerify a coil) :=
    keepsBut_of_all fun p => by cases p <;> first | (left; simp; done) | exact .inr rfl
  obtain ⟨t, runs, finishes, frame, after⟩ := completes current (dispose_of_verify work live) set
  obtain ⟨v, isV⟩ : ∃ v, v = verifyResult coil a.input.snapshot.profile.spacing (inputEnd? a.input 0)
    (s.channels.get a.flight.channel).trim := ⟨_, rfl⟩
  have channels : t.channels = s.channels.set a.flight.channel ((s.channels.get a.flight.channel).verified v.1 v.2) := by
    rw [isV]
    exact after.same .channels (by decide)
  refine ⟨t, _, _, runs, finishes, frame.mono (by decide), rfl, channels, rfl, rfl, ?_, fun endless => ?_, fun e found error is => ?_⟩
  · change (_ || _ || _) = (_ || decide (v.1 ≠ _ ∨ v.2 ≠ _))
    rw [Bool.or_assoc, Bool.eq_iff_iff]
    simp
  · rw [isV, endless]
    exact ⟨rfl, rfl⟩
  · have isError : timingError coil a.input.snapshot.profile.spacing e = error := is.symm
    rw [isV, found]
    refine ⟨fun wide => ?_, fun low high => ?_⟩
    · rw [verifyResult_of_wide (by omega)]
      exact ⟨rfl, rfl⟩
    · rw [verifyResult_of_near (by omega), isError]
      exact ⟨rfl, rfl⟩

end Sys2Proof
end

section
/-! PROOFS. The pairs that a result makes with the conditions of its span (R145, R146). -/

namespace Sys2Proof.Machine

/-! ### What matching considers (R146) -/

theorem mayMatch_iff (f k : FaultKind) :
    f.mayMatch k = true ↔ f = k ∨ ((f = .bend ∨ f = .loss) ∧ (k = .bend ∨ k = .loss)) := by
  cases f <;> cases k <;> decide

theorem distanceGap_le (a b t : Nat) : distanceGap a b ≤ t ↔ a ≤ b + t ∧ b ≤ a + t := by
  unfold distanceGap
  split <;> omega

theorem considers_iff (r : Result) (f : Finding) (c : Condition) : r.considers f c = true ↔
    (c.span = r.span ∧ c.state.isOpen = true ∧
      (f.kind = c.kind ∨ ((f.kind = .bend ∨ f.kind = .loss) ∧ (c.kind = .bend ∨ c.kind = .loss))) ∧
      f.distance ≤ c.distance + r.tolerance ∧ c.distance ≤ f.distance + r.tolerance) := by
  rw [← mayMatch_iff, ← distanceGap_le]
  simp [Result.considers, and_assoc]

theorem mem_candidates {r : Result} {conditions : List Condition} {p : Candidate} :
    p ∈ r.candidates conditions ↔ ∃ f c, r.findings[p.finding]? = some f ∧ c ∈ conditions ∧ c.tag = p.tag ∧
      r.considers f c = true ∧ p.gap = distanceGap f.distance c.distance := by
  rw [Result.candidates, mem_sortBy, List.mem_flatMap]
  constructor
  · rintro ⟨⟨f, i⟩, found, mem⟩
    obtain ⟨c, filtered, rfl⟩ := List.mem_map.mp mem
    obtain ⟨here, considers⟩ := List.mem_filter.mp filtered
    exact ⟨f, c, List.mem_zipIdx_iff_getElem?.mp found, here, rfl, considers, rfl⟩
  · rintro ⟨f, c, found, here, tag, considers, gap⟩
    refine ⟨(f, p.finding), List.mem_zipIdx_iff_getElem?.mpr found, List.mem_map.mpr ⟨c, List.mem_filter.mpr ⟨here, considers⟩, ?_⟩⟩
    rw [tag, ← gap]

/-! ### The order in which pairs are taken -/

theorem Candidate.le_iff (p q : Candidate) : p.le q = true ↔
    p.gap < q.gap ∨ (p.gap = q.gap ∧ (p.finding < q.finding ∨ (p.finding = q.finding ∧ p.tag ≤ q.tag))) := by
  simp [Candidate.le]

theorem pairwise_candidates (r : Result) (conditions : List Condition) :
    (r.candidates conditions).Pairwise (fun p q => p.le q = true) := by
  refine pairwise_sortBy (fun p q => ?_) (fun p q o hpq hqo => ?_) _
  · rw [Candidate.le_iff, Candidate.le_iff]
    omega
  · rw [Candidate.le_iff] at hpq hqo ⊢
    omega

/-! ### The made pairs -/

/-- The pairs share no finding and no condition. -/
def PairsApart (l : List Candidate) : Prop := l.Pairwise (fun p q => p.finding ≠ q.finding ∧ p.tag ≠ q.tag)

/-- The pairs share a finding or a condition. -/
def Candidate.Shares (m p : Candidate) : Prop := m.finding = p.finding ∨ m.tag = p.tag

theorem makePair_of_shares {made : List Candidate} {p : Candidate} (shares : ∃ m ∈ made, m.Shares p) : makePair made p = made := by
  refine if_pos (List.any_eq_true.mpr ?_)
  obtain ⟨m, mem, shared⟩ := shares
  exact ⟨m, mem, by simpa [Candidate.Shares] using shared⟩

theorem makePair_of_apart {made : List Candidate} {p : Candidate} (apart : ∀ m ∈ made, ¬ m.Shares p) :
    makePair made p = made ++ [p] := by
  refine if_neg fun shares => ?_
  obtain ⟨m, mem, shared⟩ := List.any_eq_true.mp shares
  exact apart m mem (by simpa [Candidate.Shares] using shared)

/-- What the taking of an ordered list of pairs keeps of the pairs made before, and what it adds. -/
structure Makes (l made out : List Candidate) : Prop where
  keeps  : ∀ m ∈ made, m ∈ out
  from_  : ∀ m ∈ out, m ∈ made ∨ m ∈ l
  apart  : PairsApart made → PairsApart out
  greedy : l.Pairwise (fun p q => p.le q = true) → (∀ m ∈ made, ∀ p ∈ l, m.le p = true) →
    ∀ p ∈ l, ∃ m ∈ out, m.Shares p ∧ m.le p = true

theorem makes_foldl (l made : List Candidate) : Makes l made (l.foldl makePair made) := by
  induction l generalizing made with
  | nil => exact ⟨fun _ mem => mem, fun _ mem => .inl mem, id, fun _ _ _ none => by cases none⟩
  | cons p rest ih =>
    rw [List.foldl_cons]
    have self : p.le p = true := by
      rw [Candidate.le_iff]
      omega
    by_cases shares : ∃ m ∈ made, m.Shares p
    · rw [makePair_of_shares shares]
      obtain ⟨keeps, comes, apart, greedy⟩ := ih made
      refine ⟨keeps, fun m mem => (comes m mem).imp_right (List.mem_cons_of_mem _), apart, fun sorted before q mem => ?_⟩
      rcases List.mem_cons.mp mem with rfl | later
      · obtain ⟨m, here, shared⟩ := shares
        exact ⟨m, keeps m here, shared, before m here q (List.mem_cons_self ..)⟩
      · exact greedy (List.pairwise_cons.mp sorted).2 (fun m here o after => before m here o (List.mem_cons_of_mem _ after)) q later
    · have alone : ∀ m ∈ made, ¬ m.Shares p := fun m mem shared => shares ⟨m, mem, shared⟩
      rw [makePair_of_apart alone]
      obtain ⟨keeps, comes, apart, greedy⟩ := ih (made ++ [p])
      have taken : p ∈ rest.foldl makePair (made ++ [p]) := keeps p (List.mem_append_right _ (List.mem_singleton.mpr rfl))
      refine ⟨fun m mem => keeps m (List.mem_append_left _ mem), fun m mem => ?_, fun before => apart ?_, fun sorted before q mem => ?_⟩
      · rcases comes m mem with old | later
        · rcases List.mem_append.mp old with old | new
          · exact .inl old
          · exact .inr (List.mem_singleton.mp new ▸ List.mem_cons_self ..)
        · exact .inr (List.mem_cons_of_mem _ later)
      · refine List.pairwise_append.mpr ⟨before, List.pairwise_singleton .., fun m mem q new => ?_⟩
        rw [List.mem_singleton.mp new]
        exact not_or.mp (alone m mem)
      · obtain ⟨first, sorted⟩ := List.pairwise_cons.mp sorted
        rcases List.mem_cons.mp mem with rfl | later
        · exact ⟨q, taken, .inl rfl, self⟩
        · refine greedy sorted (fun m here o after => ?_) q later
          rcases List.mem_append.mp here with old | new
          · exact before m old o (List.mem_cons_of_mem _ after)
          · rw [List.mem_singleton.mp new]
            exact first o after

theorem pairsApart_pairs (r : Result) (conditions : List Condition) : PairsApart (r.pairs conditions) :=
  (makes_foldl _ _).apart List.Pairwise.nil

theorem considered_of_mem_pairs {r : Result} {conditions : List Condition} {p : Candidate} (made : p ∈ r.pairs conditions) :
    ∃ f c, r.findings[p.finding]? = some f ∧ c ∈ conditions ∧ c.tag = p.tag ∧ r.considers f c = true ∧
      p.gap = distanceGap f.distance c.distance :=
  mem_candidates.mp (((makes_foldl _ _).from_ p made).resolve_left (List.not_mem_nil))

/-- R145. -/
theorem pairsMade_pairs (r : Result) (conditions : List Condition) : PairsMade r conditions (r.pairs conditions) where
  considered _ made := considered_of_mem_pairs made
  apart := pairsApart_pairs r conditions
  greedy i f c found here considers := by
    obtain ⟨m, made, shares, before⟩ := (makes_foldl (r.candidates conditions) []).greedy (pairwise_candidates r conditions)
      (fun m none => by cases none)
      { gap := distanceGap f.distance c.distance, finding := i, tag := c.tag }
      (mem_candidates.mpr ⟨f, c, found, here, rfl, considers, rfl⟩)
    exact ⟨m, made, shares, (Candidate.le_iff ..).mp before⟩

/-- Of pairs apart, the one of a finding is found. -/
theorem find?_of_pairsApart {pairs : List Candidate} (apart : PairsApart pairs) {p : Candidate} (mem : p ∈ pairs) :
    pairs.find? (fun q => q.finding == p.finding) = some p := by
  induction pairs with
  | nil => cases mem
  | cons q rest ih =>
    obtain ⟨first, apart⟩ := List.pairwise_cons.mp apart
    rcases List.mem_cons.mp mem with rfl | later
    · exact List.find?_cons_of_pos (beq_self_eq_true _)
    · rw [List.find?_cons_of_neg (by simpa using (first p later).1)]
      exact ih apart later

/-- A finding for which matching considers nothing makes no pair. -/
theorem pairs_eq_nil {r : Result} {conditions : List Condition}
    (none : ∀ f ∈ r.findings, ∀ c ∈ conditions, r.considers f c = false) : r.pairs conditions = [] := by
  refine List.eq_nil_iff_forall_not_mem.mpr fun p made => ?_
  obtain ⟨f, c, found, here, -, considers, -⟩ := considered_of_mem_pairs made
  rw [none f (List.mem_of_getElem? found) c here] at considers
  cases considers

/-- The pair of a single finding that has one candidate. -/
theorem pairs_eq_single {r : Result} {conditions : List Condition} {f : Finding} {c : Condition} (single : r.findings = [f])
    (here : c ∈ conditions) (considers : r.considers f c = true) (only : ∀ d ∈ conditions, d ≠ c → r.considers f d = false) :
    r.pairs conditions = [{ gap := distanceGap f.distance c.distance, finding := 0, tag := c.tag }] := by
  have each (p : Candidate) (made : p ∈ r.pairs conditions) :
      p = { gap := distanceGap f.distance c.distance, finding := 0, tag := c.tag } := by
    obtain ⟨gap, i, tag⟩ := p
    obtain ⟨g, d, found, there, rfl, considers', rfl⟩ := considered_of_mem_pairs made
    rw [single, List.getElem?_singleton] at found
    split at found
    next zero =>
      obtain rfl := Option.some.inj found
      obtain rfl : d = c := by
        by_contra other
        rw [only d there other] at considers'
        cases considers'
      exact congrArg (fun i => (⟨_, i, _⟩ : Candidate)) zero
    next => cases found
  obtain ⟨p, made, -⟩ := (pairsMade_pairs r conditions).greedy 0 f c (by rw [single]; rfl) here considers
  have apart := pairsApart_pairs r conditions
  match is : r.pairs conditions with
  | [] => rw [is] at made; cases made
  | [q] => rw [each q (by rw [is]; exact List.mem_singleton.mpr rfl)]
  | q :: o :: rest =>
    rw [is] at apart
    have differ := (List.pairwise_cons.mp apart).1 o (List.mem_cons_self ..)
    have same : q = o := (each q (by rw [is]; simp)).trans (each o (by rw [is]; simp)).symm
    exact absurd (congrArg Candidate.finding same) differ.1

end Sys2Proof.Machine
end

section
/-! PROOFS. What a result does to the condition table (R144 to R151); O60. -/

namespace Sys2Proof.Machine

/-! ### Misses (R147, R148) -/

section Miss

variable {c : Condition} (n : Nat)

theorem miss_of_suspect (state : c.state = .suspect) : c.miss n = { c with state := .retired, mark := true } := by
  simp only [Condition.miss, state]

theorem miss_of_confirmed (state : c.state = .confirmed) : c.miss n =
    { c with misses := 1, state := if n = 1 then .retired else .clearing, mark := true } := by
  simp only [Condition.miss, state]

theorem miss_of_clearing (state : c.state = .clearing) : c.miss n =
    { c with
      misses := c.misses + 1, state := if n ≤ c.misses + 1 then .retired else .clearing
      mark := c.mark || decide (n ≤ c.misses + 1) } := by
  simp only [Condition.miss, state]
  by_cases most : n ≤ c.misses + 1
  · simp [most]
  · simp [most, ← state]

end Miss

theorem miss_of_retired {c : Condition} (retired : c.state.isOpen = false) (n : Nat) : c.miss n = c := by
  unfold Condition.miss
  cases state : c.state
  case retired => rfl
  all_goals
    rw [state] at retired
    cases retired

theorem missUnpaired_eq (r : Result) (pairs : List Candidate) (c : Condition) : r.missUnpaired pairs c =
    if c.span = r.span ∧ c.state.isOpen = true ∧ c.tag ∉ pairs.map Candidate.tag then c.miss r.clearCount else c := by
  have same : (pairs.all (fun p => p.tag != c.tag) = true) ↔ c.tag ∉ pairs.map Candidate.tag := by simp
  simp only [Result.missUnpaired, same]

theorem missUnpaired_of_empty (r : Result) (c : Condition) : r.missUnpaired [] c =
    if c.span = r.span then c.miss r.clearCount else c := by
  rw [missUnpaired_eq]
  by_cases mine : c.span = r.span
  · cases isOpen : c.state.isOpen with
    | true => simp [mine]
    | false => simp [mine, miss_of_retired isOpen]
  · simp [mine]

theorem missUnpaired_of_paired {r : Result} {pairs : List Candidate} {c : Condition} (paired : c.tag ∈ pairs.map Candidate.tag) :
    r.missUnpaired pairs c = c := by
  rw [missUnpaired_eq, if_neg fun ⟨_, _, apart⟩ => apart paired]

theorem missUnpaired_of_unpaired {r : Result} {pairs : List Candidate} {c : Condition} (unpaired : c.tag ∉ pairs.map Candidate.tag) :
    r.missUnpaired pairs c = r.missUnpaired [] c := by
  simp [missUnpaired_eq, unpaired]

theorem missUnpaired_of_other {r : Result} {pairs : List Candidate} {c : Condition} (other : c.span ≠ r.span) :
    r.missUnpaired pairs c = c := by
  rw [missUnpaired_eq, if_neg fun ⟨mine, _⟩ => other mine]

theorem tag_missUnpaired (r : Result) (pairs : List Candidate) (c : Condition) : (r.missUnpaired pairs c).tag = c.tag :=
  congrArg Prod.fst (Condition.count_missUnpaired r pairs c)

theorem tags_missed (r : Result) (pairs : List Candidate) (l : List Condition) :
    (l.map (r.missUnpaired pairs)).map Condition.tag = l.map Condition.tag := by
  rw [List.map_map]
  exact List.map_congr_left fun c _ => tag_missUnpaired r pairs c

/-! ### Findings taken (R144) -/

theorem take_of_unpaired {r : Result} {pairs : List Candidate} {i : Nat} (unpaired : ∀ p ∈ pairs, p.finding ≠ i) (k : Folding)
    (f : Finding) : Folding.take r pairs k (f, i) = k.create r f := by
  have absent : pairs.find? (fun p => p.finding == i) = none := List.find?_eq_none.mpr fun p mem => by simpa using unpaired p mem
  simp only [Folding.take, absent]

theorem take_of_paired {r : Result} {pairs : List Candidate} (apart : PairsApart pairs) {p : Candidate} (mem : p ∈ pairs)
    (k : Folding) (f : Finding) : Folding.take r pairs k (f, p.finding) =
      { k with table := k.table.modify p.tag (Condition.hit r.confirmCount r.window f) } := by
  simp only [Folding.take, find?_of_pairsApart apart mem]

theorem upgradedBy_eq (c : Condition) (f : Finding) : c.upgradedBy f = decide (f.kind = .bend ∧ c.kind = .loss) := by
  rw [Bool.eq_iff_iff]
  simp [Condition.upgradedBy]

/-! ### Creation in a free slot (R142, R149) -/

theorem create_of_room {k : Folding} (room : k.table.conditions.length < 96) (r : Result) (f : Finding) :
    k.create r f = k.add r k.table.conditions f := if_pos room

theorem freshTag_of_free {conditions : List Condition} {counter : Nat} (nonzero : counter ≠ 0)
    (free : ∀ c ∈ conditions, c.tag ≠ counter) : freshTag conditions counter = counter := by
  have unused : (counter == 0 || (conditions.map Condition.tag).contains counter) = false := by
    simpa using ⟨nonzero, fun c mem => free c mem⟩
  unfold freshTag nextTag
  rw [unused]
  rfl

/-! ### Displacement (R150) -/

theorem oldest_of_split {window : Nat} {before after : List Condition} {d : Condition}
    (younger : ∀ e ∈ before, e.age window < d.age window) (noOlder : ∀ e ∈ after, e.age window ≤ d.age window) :
    oldest window (before ++ d :: after) = some d := by
  induction before with
  | nil =>
    have rest := isOldest_oldest window after
    rw [List.nil_append, oldest]
    cases found : oldest window after with
    | none => rfl
    | some e =>
      rw [found] at rest
      obtain ⟨first, last, rfl, -⟩ := rest
      exact if_neg (Nat.not_lt.mpr (noOlder e (by simp)))
  | cons b before ih =>
    rw [List.cons_append, oldest, ih fun e mem => younger e (List.mem_cons_of_mem _ mem)]
    exact if_pos (younger b (List.mem_cons_self ..))

theorem oldest_of_isOldest {window : Nat} {group : Condition → Prop} {l : List Condition} {d : Condition}
    (h : IsOldest window group l d) {p : Condition → Bool} (same : ∀ e ∈ l, p e = true ↔ group e) :
    oldest window (l.filter p) = some d := by
  obtain ⟨before, after, rfl, mine, younger, noOlder⟩ := h
  rw [List.filter_append, List.filter_cons_of_pos ((same d (by simp)).mpr mine)]
  refine oldest_of_split (fun e mem => ?_) (fun e mem => ?_)
  · obtain ⟨here, inGroup⟩ := List.mem_filter.mp mem
    exact younger e here ((same e (by simp [here])).mp inGroup)
  · obtain ⟨here, inGroup⟩ := List.mem_filter.mp mem
    exact noOlder e here ((same e (by simp [here])).mp inGroup)

theorem oldest_filter_eq_none {window : Nat} {l : List Condition} {p : Condition → Bool} (absent : ∀ e ∈ l, ¬ p e = true) :
    oldest window (l.filter p) = none := by
  rw [List.filter_eq_nil_iff.mpr absent]
  rfl

/-- The lowest of those below a bound are the lowest of all, where one is below it. -/
theorem ofLowestSeverity_filter {m : SeverityMap} {kind : FaultKind} {l : List Condition} {p : Condition → Bool}
    (below : ∀ e ∈ l, p e = true ↔ m.of e.kind < m.of kind) :
    ofLowestSeverity m (l.filter p) =
      l.filter (fun e => decide (m.of e.kind < m.of kind ∧ ∀ o ∈ l, m.of e.kind ≤ m.of o.kind)) := by
  rw [ofLowestSeverity, List.filter_filter]
  refine List.filter_congr fun e mem => ?_
  rw [Bool.eq_iff_iff, Bool.and_eq_true, List.all_eq_true, decide_eq_true_iff]
  simp only [decide_eq_true_eq, List.mem_filter, and_imp]
  constructor
  · rintro ⟨least, isBelow⟩
    have lower := (below e mem).mp isBelow
    refine ⟨lower, fun o here => ?_⟩
    by_cases also : p o = true
    · exact least o here also
    · have := mt (below o here).mpr also
      omega
  · exact fun ⟨lower, least⟩ => ⟨fun o here _ => least o here, (below e mem).mpr lower⟩

/-- A condition that is neither RETIRED nor CLEARING is SUSPECT or CONFIRMED. -/
theorem standing_of {c : Condition} (notRetired : c.state ≠ .retired) (notClearing : c.state ≠ .clearing) :
    (c.state == .suspect || c.state == .confirmed) = true := by
  cases state : c.state
  case retired => exact absurd state notRetired
  case clearing => exact absurd state notClearing
  all_goals rfl

/-- The candidates of the last group of R150, where none is RETIRED or CLEARING. -/
theorem lower_iff {m : SeverityMap} {kind : FaultKind} {c : Condition} (standing : (c.state == .suspect || c.state == .confirmed) = true) :
    ((c.state == .suspect || c.state == .confirmed) && m.of c.kind < m.of kind) = true ↔ m.of c.kind < m.of kind := by
  rw [standing, Bool.true_and, decide_eq_true_iff]

theorem displaced_of_displaces {m : SeverityMap} {window : Nat} {kind : FaultKind} {l : List Condition} {d : Condition}
    (h : Displaces m window kind l d) : displaced m window kind l = some d := by
  unfold displaced
  rcases h with retired | ⟨unretired, clearing⟩ | ⟨standing, lowest⟩
  · rw [oldest_of_isOldest retired (p := fun c => c.state == .retired) fun e _ => beq_iff_eq]
    rfl
  · rw [oldest_filter_eq_none (p := fun c => c.state == .retired) fun e mem => by simpa using unretired e mem,
      oldest_of_isOldest clearing (p := fun c => c.state == .clearing) fun e _ => beq_iff_eq]
    rfl
  · rw [oldest_filter_eq_none (p := fun c => c.state == .retired) fun e mem => by simpa using (standing e mem).1,
      oldest_filter_eq_none (p := fun c => c.state == .clearing) fun e mem => by simpa using (standing e mem).2,
      ofLowestSeverity_filter fun e mem => lower_iff (standing_of (standing e mem).1 (standing e mem).2)]
    exact oldest_of_isOldest lowest fun e _ => decide_eq_true_iff

theorem displaced_of_none {m : SeverityMap} {window : Nat} {kind : FaultKind} {l : List Condition}
    (kept : ∀ d ∈ l, d.state ≠ .retired ∧ d.state ≠ .clearing ∧ m.of kind ≤ m.of d.kind) : displaced m window kind l = none := by
  unfold displaced
  rw [oldest_filter_eq_none (p := fun c => c.state == .retired) fun e mem => by simpa using (kept e mem).1,
    oldest_filter_eq_none (p := fun c => c.state == .clearing) fun e mem => by simpa using (kept e mem).2.1]
  have noLower : l.filter (fun c => (c.state == .suspect || c.state == .confirmed) && m.of c.kind < m.of kind) = [] := by
    refine List.filter_eq_nil_iff.mpr fun e mem lower => ?_
    obtain ⟨notRetired, notClearing, high⟩ := kept e mem
    exact absurd ((lower_iff (standing_of notRetired notClearing)).mp lower) (Nat.not_lt.mpr high)
  rw [noLower]
  rfl

section Full

variable {k : Folding} (full : k.table.conditions.length = 96) (r : Result) (f : Finding)
include full

/-- The candidates for displacement: those that step 1 did not pair and step 3 did not create. -/
def Folding.displaceable (k : Folding) : List Condition := k.table.conditions.filter (fun c => !k.excluded.contains c.tag)

theorem create_of_displaces {d : Condition} (h : Displaces k.table.severity r.window f.kind k.displaceable d) :
    k.create r f = k.add r (k.table.conditions.filter (fun c => c.tag != d.tag)) f := by
  have found : displaced k.table.severity r.window f.kind (k.table.conditions.filter (fun c => !k.excluded.contains c.tag)) = some d :=
    displaced_of_displaces h
  unfold Folding.create
  dsimp only
  rw [if_neg (by omega), found]

theorem create_of_none (kept : ∀ d ∈ k.displaceable, d.state ≠ .retired ∧ d.state ≠ .clearing ∧
    k.table.severity.of f.kind ≤ k.table.severity.of d.kind) : k.create r f = { k with dropped := k.dropped + 1 } := by
  have found : displaced k.table.severity r.window f.kind (k.table.conditions.filter (fun c => !k.excluded.contains c.tag)) = none :=
    displaced_of_none kept
  unfold Folding.create
  dsimp only
  rw [if_neg (by omega), found]

theorem length_displaced_lt {d : Condition} (h : Displaces k.table.severity r.window f.kind k.displaceable d) :
    (k.table.conditions.filter (fun c => c.tag != d.tag)).length < 96 := by
  have mem := (List.mem_filter.mp (mem_of_displaced (displaced_of_displaces h))).1
  rw [← full]
  exact List.length_filter_lt_length_iff_exists.mpr ⟨d, mem, by simp⟩

end Full

/-! ### A result applied (R144) -/

section Apply

variable (T : CondTable) (r : Result)

theorem apply_eq : T.apply r = r.findings.zipIdx.foldl (Folding.take r (r.pairs T.conditions))
    { table := { T with conditions := T.conditions.map (r.missUnpaired (r.pairs T.conditions)) }
      excluded := (r.pairs T.conditions).map Candidate.tag, dropped := 0 } := rfl

variable {T r}

theorem apply_of_clean (clean : r.findings = []) : T.apply r =
    { table := { T with conditions := T.conditions.map (r.missUnpaired []) }, excluded := [], dropped := 0 } := by
  have none : r.pairs T.conditions = [] := pairs_eq_nil fun f mem => by rw [clean] at mem; cases mem
  rw [apply_eq, none, clean]
  rfl

theorem apply_of_new {f : Finding} (single : r.findings = [f]) (room : T.conditions.length < 96)
    (new : ∀ c ∈ T.conditions, r.considers f c = false) : T.apply r =
      ({ table := { T with conditions := T.conditions.map (r.missUnpaired []) }, excluded := [], dropped := 0 } : Folding).add r
        (T.conditions.map (r.missUnpaired [])) f := by
  have none : r.pairs T.conditions = [] := by
    refine pairs_eq_nil fun g mem => ?_
    rw [single, List.mem_singleton] at mem
    exact mem ▸ new
  rw [apply_eq, none, single]
  exact create_of_room (k := ⟨_, _, _⟩) (by simpa using room) r f

theorem apply_of_match {f : Finding} {c : Condition} (unique : (T.conditions.map Condition.tag).Nodup)
    (single : r.findings = [f]) (here : c ∈ T.conditions) (considers : r.considers f c = true)
    (only : ∀ d ∈ T.conditions, d ≠ c → r.considers f d = false) : T.apply r =
      { table := { T with conditions := T.conditions.map (fun d =>
          if d = c then c.hit r.confirmCount r.window f else r.missUnpaired [] d) }, excluded := [c.tag], dropped := 0 } := by
  have pairs := pairs_eq_single single here considers only
  have taken : T.apply r =
      { table := { T with conditions := (T.conditions.map (r.missUnpaired (r.pairs T.conditions))).map (fun d =>
          if d.tag = c.tag then d.hit r.confirmCount r.window f else d) }, excluded := [c.tag], dropped := 0 } := by
    rw [apply_eq, single, pairs]
    rfl
  rw [taken, List.map_map]
  refine congrArg (fun l => (⟨{ T with conditions := l }, [c.tag], 0⟩ : Folding)) (List.map_congr_left fun d there => ?_)
  have tag : d.tag = c.tag ↔ d = c := ⟨fun same => List.inj_on_of_nodup_map unique there here same, fun same => same ▸ rfl⟩
  simp only [Function.comp, tag_missUnpaired, tag]
  by_cases same : d = c
  · rw [if_pos same, if_pos same, same, missUnpaired_of_paired (by simp [pairs])]
  · rw [if_neg same, if_neg same, missUnpaired_of_unpaired (by simpa [pairs] using mt tag.mp same)]

/-- While there is room, the conditions of other spans stand and no finding is dropped. -/
theorem stands_apply (unique : (T.conditions.map Condition.tag).Nodup) (room : T.conditions.length + r.findings.length ≤ 96) :
    (∀ c ∈ T.conditions, c.span ≠ r.span → c ∈ (T.apply r).table.conditions) ∧ (T.apply r).dropped = 0 := by
  have hits (p : Candidate) (made : p ∈ r.pairs T.conditions) (c : Condition) (here : c ∈ T.conditions) (other : c.span ≠ r.span) :
      c.tag ≠ p.tag := by
    obtain ⟨f, d, -, there, tag, considers, -⟩ := considered_of_mem_pairs made
    intro same
    obtain rfl : c = d := List.inj_on_of_nodup_map unique here there (same.trans tag.symm)
    exact other ((considers_iff r f c).mp considers).1
  have fold (l : List (Finding × Nat)) : ∀ k : Folding, k.table.conditions.length + l.length ≤ 96 →
      (∀ c ∈ T.conditions, c.span ≠ r.span → c ∈ k.table.conditions) → k.dropped = 0 →
      (∀ c ∈ T.conditions, c.span ≠ r.span → c ∈ (l.foldl (Folding.take r (r.pairs T.conditions)) k).table.conditions) ∧
        (l.foldl (Folding.take r (r.pairs T.conditions)) k).dropped = 0 := by
    induction l with
    | nil => exact fun _ _ stand none => ⟨stand, none⟩
    | cons x l ih =>
      intro k fits stand none
      rw [List.length_cons] at fits
      obtain ⟨f, i⟩ := x
      rw [List.foldl_cons]
      by_cases paired : ∃ p ∈ r.pairs T.conditions, p.finding = i
      · obtain ⟨p, made, rfl⟩ := paired
        rw [take_of_paired (pairsApart_pairs r T.conditions) made]
        refine ih _ (by simpa [CondTable.modify] using by omega) (fun c here other => ?_) none
        exact List.mem_map.mpr ⟨c, stand c here other, if_neg (hits p made c here other)⟩
      · rw [take_of_unpaired fun p made is => paired ⟨p, made, is⟩, create_of_room (by omega)]
        refine ih _ ?_ (fun c here other => List.mem_append_left _ (stand c here other)) none
        change (k.table.conditions ++ [_]).length + l.length ≤ 96
        rw [List.length_append, List.length_singleton]
        omega
  refine fold _ _ ?_ (fun c here other => ?_) rfl
  · rw [List.length_zipIdx]
    simpa using room
  · exact List.mem_map.mpr ⟨c, here, missUnpaired_of_other other⟩

end Apply

end Sys2Proof.Machine

namespace Sys2Proof

open Machine in
/-- Settles O60: a CLEAN result, a new finding, a match, then several findings step by step. -/
theorem resultsUpdateTheConditionTable : Obligations.ResultsUpdateTheConditionTable := by
  refine ⟨fun T r unique => ⟨fun clean => ?clean, fun f single room new => ?new, fun f c single here considers only => ?hit,
    stands_apply unique⟩, considers_iff, fun T r => ⟨pairsMade_pairs .., ?steps⟩,
    fun r pairs k f i apart => ⟨fun unpaired => take_of_unpaired unpaired k f, ?paired⟩,
    fun r k f => ⟨fun room => ?room, fun full => ⟨fun d displaces => ?displaces, create_of_none full r f⟩⟩⟩
  case clean =>
    rw [apply_of_clean clean]
    congr 3
    refine funext fun c => ?_
    rw [missUnpaired_of_empty]
    refine if_congr Iff.rfl ?_ rfl
    cases state : c.state with
    | suspect => exact miss_of_suspect _ state
    | confirmed => exact miss_of_confirmed _ state
    | clearing => exact miss_of_clearing _ state
    | retired => exact miss_of_retired (by rw [state]; rfl) _
  case new =>
    have cleaned : (T.apply { r with findings := [] }).table.conditions = T.conditions.map (r.missUnpaired []) := by
      rw [apply_of_clean rfl]
      rfl
    have tags := tags_missed r [] T.conditions
    obtain ⟨nonzero, fresh⟩ := freshTag_fresh (T.conditions.map (r.missUnpaired [])) T.tagCounter (by simpa using room)
    have mem {c : Condition} (here : c ∈ T.conditions) : r.missUnpaired [] c ∈ T.conditions.map (r.missUnpaired []) :=
      List.mem_map_of_mem here
    rw [apply_of_new single room new, cleaned]
    refine ⟨freshTag (T.conditions.map (r.missUnpaired [])) T.tagCounter, rfl, nonzero, fun c here => ?_, fun some_ free => ?_,
      rfl, rfl, rfl⟩
    · rw [← tag_missUnpaired r [] c]
      exact fresh _ (mem here)
    · refine freshTag_of_free some_ fun d there => ?_
      obtain ⟨c, here, rfl⟩ := List.mem_map.mp there
      rw [tag_missUnpaired]
      exact free c here
  case hit =>
    refine ⟨c.hit r.confirmCount r.window f, ?_, ?_, ?_, rfl, rfl, rfl, rfl, rfl, rfl, rfl, rfl, ?_, rfl, ?_, fun suspect => ?_,
      fun standing => ?_, ?_, ?_⟩
    · rw [apply_of_match unique single here considers only]
    · rw [apply_of_match unique single here considers only]
    · rw [apply_of_match unique single here considers only]
    · change satSucc 15 c.hits = _
      unfold satSucc
      split <;> omega
    · simp [Condition.hit, Condition.upgradedBy]
    · simp [Condition.hit, CondState.afterMatch, suspect]
    · rcases standing with state | state <;> simp [Condition.hit, CondState.afterMatch, state]
    · change (c.acknowledged && !c.upgradedBy f && c.state != .clearing) = _
      rw [upgradedBy_eq]
    · by_cases upgraded : f.kind = .bend ∧ c.kind = .loss
      · simp [Condition.hit, Condition.upgradedBy, upgraded]
      · have stays : c.upgradedBy f = false := by rw [upgradedBy_eq, decide_eq_false upgraded]
        rw [Bool.eq_iff_iff]
        simp [Condition.hit, stays]
  case steps =>
    rw [apply_eq]
    congr 3
    exact congrArg (fun g => T.conditions.map g) (funext fun c => missUnpaired_eq ..)
  case paired =>
    rintro p mem rfl
    exact take_of_paired apart mem k f
  case room =>
    obtain ⟨nonzero, fresh⟩ := freshTag_fresh k.table.conditions k.table.tagCounter room
    exact ⟨_, nonzero, fresh, create_of_room room r f⟩
  case displaces =>
    obtain ⟨nonzero, fresh⟩ := freshTag_fresh _ k.table.tagCounter (length_displaced_lt full r f displaces)
    refine ⟨_, nonzero, fun c here other => fresh c (List.mem_filter.mpr ⟨here, by simpa using other⟩), ?_⟩
    exact create_of_displaces full r f displaces

end Sys2Proof
end

section
/-! PROOFS. Levels (R69, R86): the binary digits of a level, settled from the top, give the greatest number that is reached; O58. -/

namespace Sys2Proof.Machine

/-- One binary digit of a level settled. -/
def settleDigit (power found digit : Nat) : Nat :=
  if levelReached power (found + 2 ^ digit) then found + 2 ^ digit else found

/-- The digits below `n` settled from the top. -/
def settleDigits (power n found : Nat) : Nat := (List.range n).reverse.foldl (settleDigit power) found

theorem levelOf_of_pos {mean : Nat} (pos : 0 < mean) : levelOf mean = settleDigits (mean ^ 10000) 15 0 := if_neg pos.ne'

theorem settleDigits_succ (power n found : Nat) :
    settleDigits power (n + 1) found = settleDigits power n (settleDigit power found n) := by
  rw [settleDigits, List.range_succ, List.reverse_append]
  rfl

/-- What is found is the greatest number that is reached, if what could still be added to the start is not. -/
theorem settleDigits_greatest (power n : Nat) : ∀ found, ¬ levelReached power (found + 2 ^ n) →
    (settleDigits power n found = found ∨ levelReached power (settleDigits power n found)) ∧
      ¬ levelReached power (settleDigits power n found + 1) := by
  induction n with
  | zero => exact fun found above => ⟨.inl rfl, above⟩
  | succ n ih =>
    intro found above
    rw [settleDigits_succ]
    by_cases reached : levelReached power (found + 2 ^ n)
    · have is : settleDigit power found n = found + 2 ^ n := if_pos reached
      obtain ⟨below, notAbove⟩ := ih (found + 2 ^ n) (by rwa [add_assoc, ← two_mul, ← pow_succ'])
      rw [is]
      refine ⟨.inr ?_, notAbove⟩
      rcases below with same | further
      · rwa [same]
      · exact further
    · have is : settleDigit power found n = found := if_neg reached
      rw [is]
      exact ih found reached

theorem levelReached_iff (power level : Nat) : levelReached power level = true ↔ 10 ^ (2 * level - 1) ≤ power := decide_eq_true_iff

/-- No mean of 16 bits reaches a level of 16 bits. -/
theorem not_levelReached_top {mean : Nat} (most : mean ≤ 65535) : ¬ levelReached (mean ^ 10000) (0 + 2 ^ 15) := by
  rw [levelReached_iff, Nat.not_le]
  calc mean ^ 10000
    _ ≤ (10 ^ 5) ^ 10000 := Nat.pow_le_pow_left (by omega) _
    _ = 10 ^ (5 * 10000) := (pow_mul ..).symm
    _ < 10 ^ (2 * (0 + 2 ^ 15) - 1) := Nat.pow_lt_pow_right (by decide) (by decide)

/-- The greatest level that is reached is the rounded one. -/
theorem level_bounds {power level : Nat} (pos : 0 < power) (reached : level = 0 ∨ levelReached power level = true)
    (notNext : ¬ levelReached power (level + 1) = true) : 10 ^ (2 * level) ≤ 10 * power ∧ power < 10 ^ (2 * level + 1) := by
  rw [levelReached_iff] at reached notNext
  refine ⟨?_, Nat.not_le.mp notNext⟩
  cases level with
  | zero => exact Nat.mul_pos (by decide) pos
  | succ n =>
    have here : 10 ^ (2 * n + 1) ≤ power := reached.resolve_left (Nat.succ_ne_zero n)
    calc 10 ^ (2 * (n + 1))
      _ = 10 * 10 ^ (2 * n + 1) := by rw [← pow_succ']; rfl
      _ ≤ 10 * power := Nat.mul_le_mul_left 10 here

end Sys2Proof.Machine

namespace Sys2Proof

open Machine in
/-- Settles O58: a level is reached, and the next is not. -/
theorem levelsAreRoundedLogarithms : Obligations.LevelsAreRoundedLogarithms := by
  refine ⟨rfl, fun m least most => ?_⟩
  obtain ⟨reached, notNext⟩ := settleDigits_greatest (m ^ 10000) 15 0 (not_levelReached_top most)
  rw [← levelOf_of_pos least] at reached notNext
  exact level_bounds (Nat.pow_pos least) reached notNext

end Sys2Proof
end

section
/-! PROOFS. Event extraction (R108 to R113): the window means, the end of fibre, and the points of the run range, each by its
index. -/

namespace Sys2Proof.Machine

/-! ### Window means (R109) -/

theorem windowMeans_eq (w n : Nat) (levels : List Nat) : windowMeans w n levels = (List.range n).map (meanAt levels w) := by
  induction n generalizing levels with
  | zero => rfl
  | succ n ih =>
    rw [windowMeans, ih, List.range_succ_eq_map, List.map_cons, List.map_map]
    refine congrArg₂ List.cons rfl (List.map_congr_left fun i _ => ?_)
    simp only [Function.comp, meanAt, List.drop_tail]

theorem drop_allWindowMeans (points w i : Nat) (levels : List Nat) : (allWindowMeans points w levels).drop i =
    (List.range' i (points + 1 - w - i)).map (meanAt levels w) := by
  rw [allWindowMeans, windowMeans_eq, List.range_eq_range', ← List.map_drop, List.drop_range', Nat.mul_one, Nat.zero_add]

/-! ### The end of fibre (R112) -/

theorem firstAtMost_map (threshold : Nat) (f : Nat → Nat) (i n : Nat) :
    (∀ e, firstAtMost threshold i ((List.range' i n).map f) = some e →
      i ≤ e ∧ e < i + n ∧ f e ≤ threshold ∧ ∀ k, i ≤ k → k < e → threshold < f k) ∧
    (firstAtMost threshold i ((List.range' i n).map f) = none → ∀ k, i ≤ k → k < i + n → threshold < f k) := by
  induction n generalizing i with
  | zero => exact ⟨by rintro _ ⟨⟩, fun _ k least most => by omega⟩
  | succ n ih =>
    obtain ⟨found, absent⟩ := ih (i + 1)
    rw [List.range'_succ, List.map_cons, firstAtMost]
    by_cases here : f i ≤ threshold
    · rw [if_pos here]
      refine ⟨fun e is => ?_, by rintro ⟨⟩⟩
      obtain rfl := Option.some.inj is
      exact ⟨Nat.le_refl _, by omega, here, fun k least most => by omega⟩
    · rw [if_neg here]
      have above (k : Nat) (least : i ≤ k) (later : i + 1 ≤ k → threshold < f k) : threshold < f k := by
        rcases Nat.eq_or_lt_of_le least with rfl | after
        · exact Nat.lt_of_not_le here
        · exact later after
      refine ⟨fun e is => ?_, fun is k least most => above k least fun after => absent is k after (by omega)⟩
      obtain ⟨least, most, reached, before⟩ := found e is
      exact ⟨by omega, by omega, reached, fun k low high => above k low fun after => before k after high⟩

theorem endOfFibre?_spec (points w p0 threshold : Nat) (levels : List Nat) :
    (∀ e, endOfFibre? points w p0 threshold levels = some e → p0 ≤ e ∧ e + w ≤ points ∧ meanAt levels w e ≤ threshold ∧
      ∀ k, p0 ≤ k → k < e → threshold < meanAt levels w k) ∧
    (endOfFibre? points w p0 threshold levels = none → ∀ k, p0 ≤ k → k + w ≤ points → threshold < meanAt levels w k) := by
  rw [endOfFibre?, drop_allWindowMeans]
  obtain ⟨found, absent⟩ := firstAtMost_map threshold (meanAt levels w) p0 (points + 1 - w - p0)
  refine ⟨fun e is => ?_, fun is k least most => absent is k least (by omega)⟩
  obtain ⟨least, most, reached, before⟩ := found e is
  exact ⟨least, by omega, reached, before⟩

/-! ### Steps and peaks (R110) -/

theorem stepsFrom_eq {w p0 : Nat} (after : w ≤ p0) (points guard correction : Nat) (levels : List Nat) :
    stepsFrom p0 w guard correction (allWindowMeans points w levels) =
      (List.range' p0 (points + 1 - w - (p0 + guard))).map (stepAt levels w guard correction) := by
  simp only [stepsFrom, bind_pure_comp, List.map_eq_map, ← List.map_drop, drop_allWindowMeans]
  refine List.ext_getElem ?_ fun k low high => ?_
  · simp only [List.length_zipWith, List.length_map, List.length_range']
    omega
  · simp only [List.getElem_zipWith, List.getElem_map, List.getElem_range', Nat.one_mul, stepAt]
    rw [show p0 - w + k = p0 + k - w by omega, show p0 + guard + k = p0 + k + guard by omega]

theorem peaksFrom_eq {w p0 : Nat} (after : w ≤ p0) (points : Nat) (levels : List Nat) :
    peaksFrom p0 w (allWindowMeans points w levels) levels =
      (List.range' p0 (min (points + 1 - p0) (levels.length - p0))).map (peakAt levels w) := by
  simp only [peaksFrom, bind_pure_comp, List.map_eq_map, ← List.map_drop, drop_allWindowMeans]
  refine List.ext_getElem ?_ fun k low high => ?_
  · simp only [List.length_zipWith, List.length_map, List.length_range', List.length_drop]
    omega
  · simp only [List.length_map, List.length_range'] at high
    simp only [List.getElem_zipWith, List.getElem_map, List.getElem_range', Nat.one_mul, peakAt, List.getElem_drop]
    rw [show p0 - w + k = p0 + k - w by omega, List.getD_eq_getElem _ _ (by omega)]

/-! ### The points of the run range (R113) -/

theorem pointsFrom_map (f g : Nat → Int) (h : Nat → Option Int) (i n a b c : Nat) (ha : n ≤ a) (hb : n ≤ b) (hc : n ≤ c) :
    pointsFrom i n ((List.range' i a).map f) ((List.range' i b).map g) ((List.range' i c).map h) =
      (List.range' i n).map (fun k => ⟨k, f k, g k, h k⟩) := by
  induction n generalizing i a b c with
  | zero => simp [pointsFrom]
  | succ n ih =>
    obtain ⟨a, rfl⟩ := Nat.exists_eq_add_of_lt ha
    obtain ⟨b, rfl⟩ := Nat.exists_eq_add_of_lt hb
    obtain ⟨c, rfl⟩ := Nat.exists_eq_add_of_lt hc
    simp only [List.range'_succ, List.map_cons, pointsFrom]
    rw [ih (i + 1) _ _ _ (by omega) (by omega) (by omega)]

namespace TraceReading

/-- The secondary step at a point, where there is a secondary trace. -/
def step2 (z : TraceReading) (i : Nat) : Option Int :=
  z.secondary.map (fun levels => stepAt levels z.window z.guard z.correction i)

/-- The point of the run range at this index. -/
def point (z : TraceReading) (i : Nat) : Point := ⟨i, z.step i, z.peak i, z.step2 i⟩

/-- The number of points of the run range. -/
def count (z : TraceReading) : Nat := min (z.points + 1 - (z.lower + z.guard + z.window)) (z.limit - z.lower)

theorem inRange_iff (z : TraceReading) (i : Nat) : z.InRange i ↔ z.lower ≤ i ∧ i < z.lower + z.count := by
  unfold InRange count
  omega

end TraceReading

theorem runRange_eq (z : TraceReading) (below : z.window ≤ z.lower) (wide : 1 ≤ z.guard) (whole : z.primary.length = z.points) :
    runRange z.points z.window z.guard z.lower z.correction z.limit z.primary z.secondary =
      (List.range' z.lower z.count).map z.point := by
  have few : z.count ≤ z.points + 1 - z.window - (z.lower + z.guard) := by
    unfold TraceReading.count
    omega
  have peaks : z.count ≤ min (z.points + 1 - z.lower) (z.primary.length - z.lower) := by
    unfold TraceReading.count
    omega
  have made := pointsFrom_map z.step z.peak z.step2 z.lower z.count _ _ _ few peaks few
  unfold runRange
  dsimp only
  rw [stepsFrom_eq below, peaksFrom_eq below]
  refine Eq.trans (congrArg (pointsFrom _ _ _ _) ?_) made
  cases second : z.secondary with
  | none =>
    refine (List.eq_replicate_iff.mpr ⟨?_, fun o mem => ?_⟩).symm
    · rw [List.length_map, List.length_map]
    · obtain ⟨i, -, rfl⟩ := List.mem_map.mp mem
      rw [TraceReading.step2, second]
      rfl
  | some levels =>
    dsimp only
    rw [stepsFrom_eq below, List.map_map]
    refine List.map_congr_left fun i _ => ?_
    rw [TraceReading.step2, second]
    rfl

end Sys2Proof.Machine
end

section
/-! PROOFS. The runs of the points that pass a test (R114, R115), and the greatest peak and the greatest step of a run. -/

namespace Sys2Proof.Machine

/-! ### The bounds of the runs -/

/-- The list holds the bounds of the runs, in ascending order. -/
structure Bounds (inside : Nat → Prop) (l : List (Nat × Nat)) : Prop where
  mem   : ∀ a b, (a, b) ∈ l ↔ IsRun inside a b
  order : l.Pairwise (fun x y => x.2 < y.1)

theorem Bounds.nil {inside : Nat → Prop} (empty : ∀ i, ¬ inside i) : Bounds inside [] where
  mem a b := ⟨(by rintro ⟨⟩), fun run => absurd (run.2.1 a (Nat.le_refl a) run.1) (empty a)⟩
  order := .nil

/-- A run before all the others. -/
theorem Bounds.cons {inside later : Nat → Prop} {l : List (Nat × Nat)} (h : Bounds later l) {c s : Nat} (before : c < s)
    (splits : ∀ i, inside i ↔ (c ≤ i ∧ i < s) ∨ later i) (after : ∀ i, later i → s < i) : Bounds inside ((c, s - 1) :: l) := by
  have gap : ¬ later s := fun is => Nat.lt_irrefl s (after s is)
  refine ⟨fun a b => ?_, List.pairwise_cons.mpr ⟨fun ⟨a, b⟩ mem => ?_, h.order⟩⟩
  · rw [List.mem_cons, Prod.mk.injEq, h.mem]
    constructor
    · rintro (⟨rfl, rfl⟩ | ⟨ordered, all, next, previous⟩)
      · refine ⟨by omega, fun i low high => (splits i).mpr (.inl ⟨low, by omega⟩), ?_, fun i is => ?_⟩
        · rw [splits, Nat.sub_add_cancel (by omega)]
          exact fun is => is.elim (fun ⟨_, less⟩ => Nat.lt_irrefl s less) gap
        · rw [splits]
          rintro (⟨low, -⟩ | is')
          · omega
          · have := after i is'
            omega
      · have beyond := after a (all a (Nat.le_refl a) ordered)
        refine ⟨ordered, fun i low high => (splits i).mpr (.inr (all i low high)), ?_, fun i is => ?_⟩
        · rw [splits]
          rintro (⟨-, less⟩ | is')
          · omega
          · exact next is'
        · rw [splits]
          rintro (⟨-, less⟩ | is')
          · omega
          · exact previous i is is'
    · rintro ⟨ordered, all, next, previous⟩
      simp only [splits] at all next previous
      rcases all a (Nat.le_refl a) ordered with ⟨low, high⟩ | late
      · refine .inl ⟨?_, ?_⟩
        · by_contra differ
          exact previous (a - 1) (by omega) (.inl ⟨by omega, by omega⟩)
        · rcases Nat.lt_trichotomy b (s - 1) with short | same | long
          · exact absurd (.inl ⟨by omega, by omega⟩) next
          · exact same
          · rcases all s (by omega) (by omega) with ⟨-, less⟩ | is
            · omega
            · exact absurd is gap
      · have beyond := after a late
        refine .inr ⟨ordered, fun i low high => (all i low high).resolve_left fun ⟨_, less⟩ => by omega,
          fun is => next (.inr is), fun i is is' => previous i is (.inr is')⟩
  · obtain ⟨ordered, all, -⟩ := (h.mem a b).mp mem
    have := after a (all a (Nat.le_refl a) ordered)
    dsimp only
    omega

/-! ### The runs of a list of points by their indices -/

/-- The points from `a` to `b`. -/
def stretch (pt : Nat → Point) (a b : Nat) : List Point := (List.range' a (b + 1 - a)).map pt

theorem stretch_of_le {pt : Nat → Point} {a b : Nat} (ordered : a ≤ b) :
    stretch pt a b = pt a :: (List.range' (a + 1) (b - a)).map pt := by
  rw [stretch, Nat.succ_sub ordered, List.range'_succ]
  rfl

theorem runsOf_bounds (pt : Nat → Point) (p : Point → Bool) (n : Nat) : ∀ c s, c ≤ s →
    (∀ i, c ≤ i → i < s → p (pt i) = true) →
    ∃ l, Bounds (fun i => c ≤ i ∧ i < s + n ∧ p (pt i) = true) l ∧
      runsOf p ((List.range' c (s - c)).map pt).reverse ((List.range' s n).map pt) = l.map (fun x => stretch pt x.1 x.2) := by
  induction n with
  | zero =>
    intro c s ordered gathered
    rcases Nat.eq_or_lt_of_le ordered with rfl | before
    · refine ⟨[], .nil fun i ⟨low, high, _⟩ => by omega, ?_⟩
      rw [Nat.sub_self]
      rfl
    · refine ⟨[(c, s - 1)], Bounds.cons (.nil (inside := fun _ => False) fun _ => id) before (fun i => ?_) (fun _ => False.elim), ?_⟩
      · rw [or_false]
        exact ⟨fun ⟨low, high, _⟩ => ⟨low, high⟩, fun ⟨low, high⟩ => ⟨low, high, gathered i low high⟩⟩
      · have some_ : ((List.range' c (s - c)).map pt).reverse.isEmpty = false := by
          simp only [List.isEmpty_eq_false_iff, ne_eq, List.reverse_eq_nil_iff, List.map_eq_nil_iff, List.range'_eq_nil_iff]
          omega
        rw [List.range'_zero, List.map_nil, runsOf, some_, List.reverse_reverse]
        simp only [stretch, List.map_cons, List.map_nil]
        rw [if_neg (by decide), Nat.sub_add_cancel (by omega)]
  | succ n ih =>
    intro c s ordered gathered
    rw [List.range'_succ, List.map_cons, runsOf]
    by_cases passes : p (pt s) = true
    · rw [if_pos passes]
      have joined : pt s :: ((List.range' c (s - c)).map pt).reverse = ((List.range' c (s + 1 - c)).map pt).reverse := by
        rw [Nat.succ_sub ordered, List.range'_1_concat, List.map_append, List.reverse_append, Nat.add_sub_cancel' ordered]
        rfl
      rw [joined, show s + (n + 1) = s + 1 + n by omega]
      refine ih c (s + 1) (by omega) fun i low high => ?_
      rcases Nat.eq_or_lt_of_le (Nat.le_of_lt_succ high) with rfl | before
      · exact passes
      · exact gathered i low before
    · obtain ⟨l, bounds, runs⟩ := ih (s + 1) (s + 1) (Nat.le_refl _) (fun i low high => by omega)
      rw [Nat.sub_self, List.range'_zero, List.map_nil, List.reverse_nil] at runs
      have beyond (i : Nat) (low : s ≤ i) (holds : p (pt i) = true) : s + 1 ≤ i := by
        rcases Nat.eq_or_lt_of_le low with rfl | after
        · exact absurd holds passes
        · exact after
      rw [if_neg passes, runs]
      rcases Nat.eq_or_lt_of_le ordered with rfl | before
      · refine ⟨l, ?_, ?_⟩
        · convert bounds using 1
          funext i
          refine propext ⟨fun ⟨low, high, holds⟩ => ⟨beyond i low holds, by omega, holds⟩, fun ⟨low, high, holds⟩ => ⟨by omega, by omega, holds⟩⟩
        · rw [Nat.sub_self]
          rfl
      · refine ⟨(c, s - 1) :: l, bounds.cons before (fun i => ?_) (fun i ⟨low, _⟩ => low), ?_⟩
        · constructor
          · rintro ⟨low, high, holds⟩
            rcases Nat.lt_or_ge i s with early | late
            · exact .inl ⟨low, early⟩
            · exact .inr ⟨beyond i late holds, by omega, holds⟩
          · rintro (⟨low, high⟩ | ⟨low, high, holds⟩)
            · exact ⟨low, by omega, gathered i low high⟩
            · exact ⟨by omega, by omega, holds⟩
        · have some_ : ((List.range' c (s - c)).map pt).reverse.isEmpty = false := by
            simp only [List.isEmpty_eq_false_iff, ne_eq, List.reverse_eq_nil_iff, List.map_eq_nil_iff, List.range'_eq_nil_iff]
            omega
          rw [some_, List.reverse_reverse, if_neg (by decide), List.map_cons, stretch, Nat.sub_add_cancel (by omega)]

/-- The runs among the points of a range. -/
theorem runsOf_range (pt : Nat → Point) (p : Point → Bool) (s n : Nat) {inside : Nat → Prop}
    (same : ∀ i, inside i ↔ s ≤ i ∧ i < s + n ∧ p (pt i) = true) :
    ∃ l, Bounds inside l ∧ runsOf p [] ((List.range' s n).map pt) = l.map (fun x => stretch pt x.1 x.2) := by
  obtain ⟨l, bounds, runs⟩ := runsOf_bounds pt p n s s (Nat.le_refl s) (fun i low high => by omega)
  rw [Nat.sub_self] at runs
  rw [funext fun i => propext (same i)]
  exact ⟨l, bounds, runs⟩

/-! ### The greatest peak and the greatest step -/

theorem maxPeak_spec (first : Int) (l : List Point) :
    first ≤ maxPeak first l ∧ (∀ x ∈ l, x.peak ≤ maxPeak first l) ∧ (maxPeak first l = first ∨ ∃ x ∈ l, maxPeak first l = x.peak) := by
  induction l generalizing first with
  | nil => exact ⟨Int.le_refl _, (by rintro _ ⟨⟩), .inl rfl⟩
  | cons y l ih =>
    obtain ⟨best, isBest⟩ : ∃ best, best = if first < y.peak then y.peak else first := ⟨_, rfl⟩
    have unfolds : maxPeak first (y :: l) = maxPeak best l := by
      rw [isBest]
      rfl
    have bounds : first ≤ best ∧ y.peak ≤ best ∧ (best = first ∨ best = y.peak) := by
      rw [isBest]
      split <;> omega
    obtain ⟨overFirst, overPeak, isOne⟩ := bounds
    obtain ⟨least, all, reached⟩ := ih best
    rw [unfolds]
    refine ⟨overFirst.trans least, fun x mem => ?_, ?_⟩
    · rcases List.mem_cons.mp mem with rfl | later
      · exact overPeak.trans least
      · exact all x later
    · rcases reached with same | ⟨x, mem, same⟩
      · exact isOne.imp (fun is => same.trans is) fun is => ⟨y, List.mem_cons_self .., same.trans is⟩
      · exact .inr ⟨x, List.mem_cons_of_mem _ mem, same⟩

/-- The first of the greatest steps, among the points from `a` to below `s`, is at `j`. -/
structure FirstGreatest (pt : Nat → Point) (a s j : Nat) : Prop where
  low     : a ≤ j
  high    : j < s
  greatest : ∀ k, a ≤ k → k < s → (pt k).step ≤ (pt j).step
  first   : ∀ k, a ≤ k → k < j → (pt k).step < (pt j).step

theorem maxStep_spec (pt : Nat → Point) {a s j : Nat} (h : FirstGreatest pt a s j) (n : Nat) :
    ∃ i, maxStep (pt j) ((List.range' s n).map pt) = pt i ∧ FirstGreatest pt a (s + n) i := by
  induction n generalizing s j with
  | zero => exact ⟨j, rfl, h⟩
  | succ n ih =>
    have unfolds : maxStep (pt j) ((List.range' s (n + 1)).map pt) =
        maxStep (if (pt j).step < (pt s).step then pt s else pt j) ((List.range' (s + 1) n).map pt) := by
      rw [List.range'_succ]
      rfl
    obtain ⟨low, high, greatest, first⟩ := h
    rw [unfolds, show s + (n + 1) = s + 1 + n by omega]
    by_cases greater : (pt j).step < (pt s).step
    · rw [if_pos greater]
      refine ih ⟨by omega, by omega, fun k least most => ?_, fun k least most => lt_of_le_of_lt (greatest k least most) greater⟩
      rcases Nat.eq_or_lt_of_le (Nat.le_of_lt_succ most) with rfl | before
      · exact Int.le_refl _
      · exact (greatest k least before).trans greater.le
    · rw [if_neg greater]
      refine ih ⟨low, by omega, fun k least most => ?_, first⟩
      rcases Nat.eq_or_lt_of_le (Nat.le_of_lt_succ most) with rfl | before
      · exact Int.not_lt.mp greater
      · exact greatest k least before

end Sys2Proof.Machine
end

section
/-! PROOFS. The events of a trace (R114 to R117): one of each reflective run, and one of each loss run that is merged into no
reflective run. -/

namespace Sys2Proof.Machine

/-! ### One event of each run -/

/-- One event of each run, in ascending location; `Is` says which. -/
structure EventsOf (inside : Nat → Prop) (Is : Nat → Nat → Event → Prop) (l : List Event) : Prop where
  of_run : ∀ e ∈ l, ∃ a b, IsRun inside a b ∧ Is a b e
  each   : ∀ a b, IsRun inside a b → ∃ e ∈ l, Is a b e
  order  : l.Pairwise (fun e d => e.location < d.location)

theorem eventsOf_runs {pt : Nat → Point} {inside : Nat → Prop} {l : List (Nat × Nat)} (bounds : Bounds inside l)
    {f : List Point → Option Event} {Is : Nat → Nat → Event → Prop}
    (gives : ∀ a b, a ≤ b → ∃ e, f (stretch pt a b) = some e ∧ Is a b e)
    (within : ∀ a b e, Is a b e → a ≤ e.location ∧ e.location ≤ b) :
    EventsOf inside Is ((l.map (fun x => stretch pt x.1 x.2)).filterMap f) := by
  have found {a b : Nat} (mem : (a, b) ∈ l) : ∃ e, f (stretch pt a b) = some e ∧ Is a b e :=
    gives a b ((bounds.mem a b).mp mem).1
  rw [List.filterMap_map]
  refine ⟨fun e mem => ?_, fun a b run => ?_, ?_⟩
  · obtain ⟨⟨a, b⟩, bound, is⟩ := List.mem_filterMap.mp mem
    obtain ⟨e', is', holds⟩ := found bound
    obtain rfl : e' = e := Option.some.inj (is'.symm.trans is)
    exact ⟨a, b, (bounds.mem a b).mp bound, holds⟩
  · obtain ⟨e, is, holds⟩ := found ((bounds.mem a b).mpr run)
    exact ⟨e, List.mem_filterMap.mpr ⟨(a, b), (bounds.mem a b).mpr run, is⟩, holds⟩
  · have ordered : l.Pairwise (fun x y => (x ∈ l ∧ y ∈ l) ∧ x.2 < y.1) :=
      bounds.order.imp_of_mem fun hx hy less => ⟨⟨hx, hy⟩, less⟩
    refine ordered.filterMap _ fun ⟨a, b⟩ ⟨c, d⟩ ⟨⟨memX, memY⟩, less⟩ e is g is' => ?_
    obtain ⟨e', isE, holds⟩ := found memX
    obtain ⟨g', isG, holds'⟩ := found memY
    obtain rfl : e' = e := Option.some.inj (isE.symm.trans is)
    obtain rfl : g' = g := Option.some.inj (isG.symm.trans is')
    have := within _ _ _ holds
    have := within _ _ _ holds'
    dsimp only at less
    omega

namespace TraceReading

/-- The event of the reflective run from `a` to `b`, its loss the own loss (R114). -/
structure ReflectiveOf (z : TraceReading) (a b : Nat) (e : Event) : Prop where
  location   : e.location = a
  reflective : e.reflective = true
  loss       : e.loss = (z.step a).toNat
  step       : e.step = z.step a
  step2      : e.step2 = z.step2 a
  height     : ∃ h : Int, e.height = h.toNat ∧ (∀ i, a ≤ i → i ≤ b → z.peak i ≤ h) ∧ ∃ i, a ≤ i ∧ i ≤ b ∧ z.peak i = h

/-- The event of the loss run from `a` to `b` (R115). -/
structure LossOf (z : TraceReading) (a b : Nat) (e : Event) : Prop where
  location   : FirstGreatest z.point a (b + 1) e.location
  reflective : e.reflective = false
  loss       : e.loss = (z.step e.location).toNat
  height     : e.height = 0
  step       : e.step = z.step e.location
  step2      : e.step2 = z.step2 e.location

/-- The points of the run range. -/
def pointList (z : TraceReading) : List Point := (List.range' z.lower z.count).map z.point

/-- The reflective events, before losses are merged into them. -/
def reflectives (z : TraceReading) : List Event :=
  (runsOf (fun x => (z.peakFrom : Int) ≤ x.peak) [] z.pointList).filterMap reflectiveEvent

/-- The loss events. -/
def losses (z : TraceReading) : List Event :=
  (runsOf (fun x => (z.stepFrom : Int) ≤ x.step) [] z.pointList).filterMap lossEvent

variable (z : TraceReading)

theorem reflectiveEvent_stretch {a b : Nat} (ordered : a ≤ b) :
    ∃ e, reflectiveEvent (stretch z.point a b) = some e ∧ z.ReflectiveOf a b e := by
  rw [stretch_of_le ordered]
  obtain ⟨least, all, reached⟩ := maxPeak_spec (z.point a).peak ((List.range' (a + 1) (b - a)).map z.point)
  refine ⟨_, rfl, rfl, rfl, rfl, rfl, rfl, _, rfl, fun i low high => ?_, ?_⟩
  · rcases Nat.eq_or_lt_of_le low with rfl | after
    · exact least
    · exact all _ (List.mem_map_of_mem (List.mem_range'_1.mpr ⟨after, by omega⟩))
  · rcases reached with same | ⟨x, mem, same⟩
    · exact ⟨a, Nat.le_refl a, ordered, same.symm⟩
    · obtain ⟨i, indexed, rfl⟩ := List.mem_map.mp mem
      obtain ⟨low, high⟩ := List.mem_range'_1.mp indexed
      exact ⟨i, by omega, by omega, same.symm⟩

theorem lossEvent_stretch {a b : Nat} (ordered : a ≤ b) :
    ∃ e, lossEvent (stretch z.point a b) = some e ∧ z.LossOf a b e := by
  have first : FirstGreatest z.point a (a + 1) a := by
    refine ⟨Nat.le_refl a, Nat.lt_succ_self a, fun k low high => ?_, fun k low high => by omega⟩
    obtain rfl : k = a := by omega
    exact Int.le_refl _
  obtain ⟨i, is, greatest⟩ := maxStep_spec z.point first (b - a)
  rw [show a + 1 + (b - a) = b + 1 by omega] at greatest
  rw [stretch_of_le ordered]
  have made : lossEvent (z.point a :: (List.range' (a + 1) (b - a)).map z.point) =
      some { location := i, reflective := false, loss := (z.step i).toNat, height := 0, step := z.step i, step2 := z.step2 i,
             distance := 0 } := by
    simp only [lossEvent, is]
    rfl
  exact ⟨_, made, greatest, rfl, rfl, rfl, rfl, rfl⟩

theorem eventsOf_reflectives : EventsOf z.Reflects z.ReflectiveOf z.reflectives := by
  obtain ⟨l, bounds, runs⟩ := runsOf_range z.point (fun x => (z.peakFrom : Int) ≤ x.peak) z.lower z.count (inside := z.Reflects)
    fun i => by rw [Reflects, inRange_iff, decide_eq_true_iff, and_assoc]; rfl
  rw [reflectives, pointList, runs]
  refine eventsOf_runs bounds (fun a b => z.reflectiveEvent_stretch) fun a b e is => ?_
  obtain ⟨h, -, -, i, low, high, -⟩ := is.height
  rw [is.location]
  exact ⟨Nat.le_refl a, low.trans high⟩

theorem eventsOf_losses : EventsOf z.Loses z.LossOf z.losses := by
  obtain ⟨l, bounds, runs⟩ := runsOf_range z.point (fun x => (z.stepFrom : Int) ≤ x.step) z.lower z.count (inside := z.Loses)
    fun i => by rw [Loses, inRange_iff, decide_eq_true_iff, and_assoc]; rfl
  rw [losses, pointList, runs]
  exact eventsOf_runs bounds (fun a b => z.lossEvent_stretch) fun a b e is =>
    ⟨is.location.low, Nat.le_of_lt_succ is.location.high⟩

/-! ### Where the events are -/

theorem reflectsAt_iff (a : Nat) : z.ReflectsAt a ↔ ∃ e ∈ z.reflectives, e.location = a := by
  constructor
  · rintro ⟨b, run⟩
    obtain ⟨e, mem, is⟩ := z.eventsOf_reflectives.each a b run
    exact ⟨e, mem, is.location⟩
  · rintro ⟨e, mem, rfl⟩
    obtain ⟨a, b, run, is⟩ := z.eventsOf_reflectives.of_run e mem
    exact ⟨b, by rw [is.location]; exact run⟩

theorem FirstGreatest.isRunPeak {z : TraceReading} {a b i : Nat} (h : FirstGreatest z.point a (b + 1) i)
    (run : IsRun z.Loses a b) : z.LosesAt i :=
  ⟨a, b, run, h.low, Nat.le_of_lt_succ h.high, fun k low high => h.greatest k low (Nat.lt_succ_of_le high), h.first⟩

theorem losesAt_iff (i : Nat) : z.LosesAt i ↔ ∃ e ∈ z.losses, e.location = i := by
  constructor
  · rintro ⟨a, b, run, low, high, greatest, first⟩
    obtain ⟨e, mem, is⟩ := z.eventsOf_losses.each a b run
    refine ⟨e, mem, ?_⟩
    obtain ⟨low', high', greatest', first'⟩ := is.location
    rcases Nat.lt_trichotomy e.location i with before | same | after
    · exact absurd (first e.location low' before) (not_lt.mpr (greatest' i low (Nat.lt_succ_of_le high)))
    · exact same
    · exact absurd (first' i low after) (not_lt.mpr (greatest e.location low' (Nat.le_of_lt_succ high')))
  · rintro ⟨e, mem, rfl⟩
    obtain ⟨a, b, run, is⟩ := z.eventsOf_losses.of_run e mem
    exact FirstGreatest.isRunPeak is.location run

/-- A loss is no less than the least that makes a loss run. -/
theorem toNat_loss {e : Event} (mem : e ∈ z.losses) : (e.loss : Int) = z.step e.location := by
  obtain ⟨a, b, run, is⟩ := z.eventsOf_losses.of_run e mem
  have loses := run.2.1 e.location is.location.low (Nat.le_of_lt_succ is.location.high)
  rw [is.loss, Int.toNat_of_nonneg (le_trans (Int.natCast_nonneg _) loses.2)]

end TraceReading

/-! ### Merging (R116) -/

/-- The last of some events in ascending location. -/
theorem getLast?_of_greatest {l : List Event} (order : l.Pairwise (fun e d => e.location < d.location)) {r : Nat} :
    l.getLast?.map Event.location = some r ↔ (∃ e ∈ l, e.location = r) ∧ ∀ d ∈ l, d.location ≤ r := by
  have last {e : Event} (is : l.getLast? = some e) : e ∈ l ∧ ∀ d ∈ l, d.location ≤ e.location := by
    obtain ⟨init, rfl⟩ := List.getLast?_eq_some_iff.mp is
    refine ⟨by simp, fun d mem => ?_⟩
    rcases List.mem_append.mp mem with before | same
    · exact ((List.pairwise_append.mp order).2.2 d before e (List.mem_singleton.mpr rfl)).le
    · rw [List.mem_singleton.mp same]
  rw [Option.map_eq_some_iff]
  constructor
  · rintro ⟨e, is, rfl⟩
    obtain ⟨mem, greatest⟩ := last is
    exact ⟨⟨e, mem, rfl⟩, greatest⟩
  · rintro ⟨⟨e, mem, rfl⟩, greatest⟩
    obtain ⟨d, is⟩ := Option.isSome_iff_exists.mp (List.getLast?_isSome.mpr (List.ne_nil_of_mem mem))
    obtain ⟨memD, greatestD⟩ := last is
    exact ⟨d, is, Nat.le_antisymm (greatest d memD) (greatestD e mem)⟩

namespace TraceReading

variable (z : TraceReading)

theorem mergeTarget_eq_some {l r : Nat} (loses : z.LosesAt l) :
    mergeTarget z.guard z.reflectives l = some r ↔ z.MergedInto l r := by
  unfold mergeTarget
  rw [getLast?_of_greatest (z.eventsOf_reflectives.order.filter _)]
  simp only [List.mem_filter, Bool.and_eq_true, decide_eq_true_eq, MergedInto, reflectsAt_iff]
  constructor
  · rintro ⟨⟨e, ⟨mem, low, reach⟩, rfl⟩, greatest⟩
    refine ⟨loses, ⟨e, mem, rfl⟩, low, reach, ?_⟩
    rintro q ⟨d, memD, rfl⟩ lowD
    rcases Nat.lt_or_ge l (d.location + z.guard) with within | beyond
    · exact greatest d ⟨memD, lowD, within⟩
    · omega
  · rintro ⟨-, ⟨e, mem, rfl⟩, low, reach, greatest⟩
    exact ⟨⟨e, ⟨mem, low, reach⟩, rfl⟩, fun d ⟨memD, lowD, _⟩ => greatest d.location ⟨d, memD, rfl⟩ lowD⟩

theorem mergeTarget_eq_none {l : Nat} (loses : z.LosesAt l) :
    mergeTarget z.guard z.reflectives l = none ↔ ∀ r, ¬ z.MergedInto l r := by
  rw [Option.eq_none_iff_forall_ne_some]
  exact forall_congr' fun r => not_congr (z.mergeTarget_eq_some loses)

end TraceReading

/-- The greatest of a start and the losses of some events. -/
theorem foldl_max_loss (l : List Event) (n : Nat) :
    n ≤ l.foldl (fun best e => max best e.loss) n ∧ (∀ e ∈ l, e.loss ≤ l.foldl (fun best e => max best e.loss) n) ∧
      (l.foldl (fun best e => max best e.loss) n = n ∨ ∃ e ∈ l, l.foldl (fun best e => max best e.loss) n = e.loss) := by
  induction l generalizing n with
  | nil => exact ⟨Nat.le_refl n, (by rintro _ ⟨⟩), .inl rfl⟩
  | cons d l ih =>
    obtain ⟨least, all, reached⟩ := ih (max n d.loss)
    rw [List.foldl_cons]
    refine ⟨(le_max_left ..).trans least, fun e mem => ?_, ?_⟩
    · rcases List.mem_cons.mp mem with rfl | later
      · exact (le_max_right ..).trans least
      · exact all e later
    · rcases reached with same | ⟨e, mem, same⟩
      · rcases max_choice n d.loss with first | second
        · exact .inl (same.trans first)
        · exact .inr ⟨d, List.mem_cons_self .., same.trans second⟩
      · exact .inr ⟨e, List.mem_cons_of_mem _ mem, same⟩

end Sys2Proof.Machine
end

section
/-! PROOFS. The event list of an extraction (R113 to R119): every event of the trace before the list is limited, its fields, and
what the limit leaves out. -/

namespace Sys2Proof.Machine

namespace TraceReading

variable (z : TraceReading)

/-! ### The merged list (R116, R117) -/

/-- The events before the list is limited. -/
def merged (z : TraceReading) : List Event := mergedEvents z.guard z.reflectives z.losses

/-- A reflective event with the losses merged into it. -/
def withLosses (z : TraceReading) (r : Event) : Event := mergeInto z.guard z.reflectives z.losses r

theorem mem_merged (e : Event) : e ∈ z.merged ↔
    (∃ r ∈ z.reflectives, z.withLosses r = e) ∨ (e ∈ z.losses ∧ mergeTarget z.guard z.reflectives e.location = none) := by
  unfold merged mergedEvents
  rw [mem_sortBy, List.mem_append, List.mem_map, List.mem_filter, Option.isNone_iff_eq_none]
  rfl

theorem losesAt_of_mem {e : Event} (mem : e ∈ z.losses) : z.LosesAt e.location := (z.losesAt_iff _).mpr ⟨e, mem, rfl⟩

theorem reflectsAt_of_mem {e : Event} (mem : e ∈ z.reflectives) : z.ReflectsAt e.location := (z.reflectsAt_iff _).mpr ⟨e, mem, rfl⟩

/-- A reflective event and a loss event of one location are one event, since the loss is within reach. -/
theorem locations_differ (wide : 1 ≤ z.guard) {r e : Event} (reflects : r ∈ z.reflectives)
    (unmerged : mergeTarget z.guard z.reflectives e.location = none) : r.location ≠ e.location := by
  intro same
  have reach : r ∈ z.reflectives.filter (fun q => q.location ≤ e.location && e.location < q.location + z.guard) := by
    rw [List.mem_filter, Bool.and_eq_true, decide_eq_true_iff, decide_eq_true_iff]
    exact ⟨reflects, by omega, by omega⟩
  unfold mergeTarget at unmerged
  rw [Option.map_eq_none_iff, List.getLast?_eq_none_iff] at unmerged
  rw [unmerged] at reach
  cases reach

/-- The events stand in ascending location, one at each (R117). -/
theorem pairwise_merged (wide : 1 ≤ z.guard) : z.merged.Pairwise (fun e d => e.location < d.location) := by
  have sorted : z.merged.Pairwise (fun e d => decide (e.location ≤ d.location) = true) :=
    pairwise_sortBy (le := fun (e d : Event) => decide (e.location ≤ d.location)) (fun e d => by simpa using Nat.le_total ..)
      (fun e d g hed hdg => by simpa using Nat.le_trans (of_decide_eq_true hed) (of_decide_eq_true hdg)) _
  have apart : ((z.reflectives.map z.withLosses ++
      z.losses.filter (fun l => (mergeTarget z.guard z.reflectives l.location).isNone)).map Event.location).Nodup := by
    rw [List.map_append, List.map_map, List.nodup_append]
    refine ⟨?_, ?_, fun i here k there => ?_⟩
    · refine List.pairwise_map.mpr (z.eventsOf_reflectives.order.imp fun {e d} less => ?_)
      exact Nat.ne_of_lt less
    · exact List.pairwise_map.mpr ((z.eventsOf_losses.order.filter _).imp fun {e d} less => Nat.ne_of_lt less)
    · obtain ⟨r, reflects, rfl⟩ := List.mem_map.mp here
      obtain ⟨e, mem, rfl⟩ := List.mem_map.mp there
      exact z.locations_differ wide (r := r) reflects (Option.isNone_iff_eq_none.mp (List.mem_filter.mp mem).2)
  have perm : z.merged.Perm (z.reflectives.map z.withLosses ++
      z.losses.filter (fun l => (mergeTarget z.guard z.reflectives l.location).isNone)) := perm_sortBy ..
  have differ := List.pairwise_map.mp ((perm.map Event.location).nodup_iff.mpr apart)
  exact (sorted.and differ).imp fun ⟨ordered, other⟩ => Nat.lt_of_le_of_ne (of_decide_eq_true ordered) other

/-! ### Where events are, and of which type -/

theorem eventAt_iff (location : Nat) (reflective : Bool) :
    z.EventAt location reflective ↔ ∃ e ∈ z.merged, e.location = location ∧ e.reflective = reflective := by
  have isReflective {r : Event} (mem : r ∈ z.reflectives) : r.reflective = true := by
    obtain ⟨a, b, -, is⟩ := z.eventsOf_reflectives.of_run r mem
    exact is.reflective
  have isLoss {e : Event} (mem : e ∈ z.losses) : e.reflective = false := by
    obtain ⟨a, b, -, is⟩ := z.eventsOf_losses.of_run e mem
    exact is.reflective
  cases reflective with
  | true =>
    change z.ReflectsAt location ↔ _
    rw [reflectsAt_iff]
    constructor
    · rintro ⟨r, mem, rfl⟩
      exact ⟨z.withLosses r, (z.mem_merged _).mpr (.inl ⟨r, mem, rfl⟩), rfl, isReflective (r := r) mem⟩
    · rintro ⟨e, mem, rfl, reflects⟩
      rcases (z.mem_merged e).mp mem with ⟨r, memR, rfl⟩ | ⟨loss, -⟩
      · exact ⟨r, memR, rfl⟩
      · cases (isLoss loss).symm.trans reflects
  | false =>
    change (z.LosesAt location ∧ ∀ r, ¬ z.MergedInto location r) ↔ _
    constructor
    · rintro ⟨loses, unmerged⟩
      obtain ⟨e, mem, rfl⟩ := (z.losesAt_iff _).mp loses
      exact ⟨e, (z.mem_merged e).mpr (.inr ⟨mem, (z.mergeTarget_eq_none loses).mpr unmerged⟩), rfl, isLoss mem⟩
    · rintro ⟨e, mem, rfl, loss⟩
      rcases (z.mem_merged e).mp mem with ⟨r, memR, rfl⟩ | ⟨memL, unmerged⟩
      · cases (isReflective memR).symm.trans loss
      · have loses := z.losesAt_of_mem memL
        exact ⟨loses, (z.mergeTarget_eq_none loses).mp unmerged⟩

/-! ### The fields of an event -/

theorem eventFields_of_loss {e : Event} (mem : e ∈ z.losses) : EventFields z e := by
  have loss := z.toNat_loss mem
  obtain ⟨a, b, -, is⟩ := z.eventsOf_losses.of_run e mem
  have not (reflects : e.reflective = true) : False := by cases is.reflective.symm.trans reflects
  exact ⟨is.step, is.step2, fun _ => ⟨loss, is.height⟩, fun reflects => (not reflects).elim, fun reflects => (not reflects).elim,
    fun reflects => (not reflects).elim⟩

theorem eventFields_of_reflective {r : Event} (mem : r ∈ z.reflectives) : EventFields z (z.withLosses r) := by
  obtain ⟨a, b, run, is⟩ := z.eventsOf_reflectives.of_run r mem
  obtain ⟨isLocation, isReflective, isLoss, isStep, isStep2, h, isHeight, most, i, low, high, reached⟩ := is
  obtain ⟨into, isInto⟩ : ∃ l, l = z.losses.filter (fun l => mergeTarget z.guard z.reflectives l.location == some r.location) := ⟨_, rfl⟩
  have memInto (l : Event) : l ∈ into ↔ l ∈ z.losses ∧ z.MergedInto l.location r.location := by
    rw [isInto, List.mem_filter, beq_iff_eq]
    exact and_congr_right fun here => z.mergeTarget_eq_some (z.losesAt_of_mem here)
  have isMerged : (z.withLosses r).loss = into.foldl (fun best l => max best l.loss) r.loss := by
    rw [isInto]
    rfl
  obtain ⟨least, all, reaches⟩ := foldl_max_loss into r.loss
  rw [← isMerged] at least all reaches
  have positive : 0 ≤ h := by
    have inside := run.2.1 i low high
    rw [← reached]
    exact le_trans (Int.natCast_nonneg _) inside.2
  have height : ((z.withLosses r).height : Int) = h := by
    change (r.height : Int) = h
    rw [isHeight, Int.toNat_of_nonneg positive]
  have own : z.step r.location ≤ r.loss := by
    rw [isLoss, isLocation]
    exact Int.self_le_toNat _
  refine ⟨isStep.trans (by rw [← isLocation]; rfl), isStep2.trans (by rw [← isLocation]; rfl), fun plain => ?_, fun _ => ?_,
    fun _ => ⟨own.trans (by exact_mod_cast least), fun l into_ => ?_⟩, fun _ => ?_⟩
  · cases isReflective.symm.trans plain
  · have here : (z.withLosses r).location = a := isLocation
    rw [height, here]
    exact ⟨b, run, most, i, low, high, reached⟩
  · obtain ⟨e, memE, rfl⟩ := (z.losesAt_iff l).mp into_.1
    rw [← z.toNat_loss memE]
    exact_mod_cast all e ((memInto e).mpr ⟨memE, into_⟩)
  · rcases reaches with same | ⟨e, memE, same⟩
    · rw [same]
      change r.loss = 0 ∨ (r.loss : Int) = z.step r.location ∨ _
      rw [isLoss, isLocation]
      rcases Int.le_total 0 (z.step a) with atLeast | below
      · exact .inr (.inl (Int.toNat_of_nonneg atLeast))
      · exact .inl (Int.toNat_of_nonpos below)
    · obtain ⟨loss, merges⟩ := (memInto e).mp memE
      refine .inr (.inr ⟨e.location, merges, ?_⟩)
      rw [same]
      exact z.toNat_loss loss

theorem eventFields_of_merged {e : Event} (mem : e ∈ z.merged) : EventFields z e := by
  rcases (z.mem_merged e).mp mem with ⟨r, memR, rfl⟩ | ⟨memL, -⟩
  · exact z.eventFields_of_reflective memR
  · exact z.eventFields_of_loss memL

end TraceReading

/-- An event at its distance. -/
def Event.placedAt (d : Nat) (e : Event) : Event := { e with distance := d }

theorem location_placedAt (d : Nat) (e : Event) : (e.placedAt d).location = e.location := rfl

theorem reflective_placedAt (d : Nat) (e : Event) : (e.placedAt d).reflective = e.reflective := rfl

theorem distance_placedAt (d : Nat) (e : Event) : (e.placedAt d).distance = d := rfl

/-- The fields do not tell the distance. -/
theorem EventFields.placedAt {z : TraceReading} {e : Event} (h : EventFields z e) (d : Nat) : EventFields z (e.placedAt d) :=
  ⟨h.step, h.step2, h.plain, h.height, h.greatest, h.reached⟩

/-! ### The result of extraction (R119) -/

section Extract

variable (input : InputCopy) (c : SpanCopy)

theorem endPoint_extract : (extract input c).endPoint =
    (inputEnd? input c.fields.launchOffset).getD input.snapshot.profile.pointCount := rfl

/-- The input copy as extraction reads it, with its own end of fibre. -/
def readingOf : TraceReading := readOf input c (extract input c).endPoint

/-- An event of the result. -/
def placed (e : Event) : Event := e.placedAt (placeOf input c e.location)

theorem location_placed (e : Event) : (placed input c e).location = e.location := location_placedAt _ e

theorem reflective_placed (e : Event) : (placed input c e).reflective = e.reflective := reflective_placedAt _ e

theorem distance_placed (e : Event) : (placed input c e).distance = placeOf input c e.location := distance_placedAt _ e

theorem events_extract (wide : 1 ≤ (readingOf input c).guard) (whole : input.primary.length = (readingOf input c).points) :
    (extract input c).events = ((readingOf input c).merged.take 64).map (placed input c) ∧
      (extract input c).truncated = decide (64 < (readingOf input c).merged.length) := by
  have ranged := runRange_eq (readingOf input c) (le_max_left ..) wide whole
  have points : runRange input.snapshot.profile.pointCount input.snapshot.profile.window input.snapshot.guard
      (lowerBound input.snapshot.profile.window input.snapshot.profile.spacing c.fields.launchOffset)
      (slopeCorrection c.fields.attenuation input.snapshot.profile.window input.snapshot.guard input.snapshot.profile.spacing
        c.fields.groupIndex)
      ((inputEnd? input c.fields.launchOffset).getD input.snapshot.profile.pointCount) input.primary input.secondary =
      (readingOf input c).pointList := ranged
  unfold extract
  dsimp only
  rw [points]
  exact ⟨rfl, rfl⟩

end Extract

/-- What a limit of 64 keeps of an ordered list, and what it leaves out. -/
theorem limited {l : List Event} (order : l.Pairwise (fun e d => e.location < d.location)) (e : Event) (mem : e ∈ l) :
    e ∈ l.take 64 ∨ (64 < l.length ∧ ∀ d ∈ l.take 64, d.location < e.location) := by
  rw [← List.take_append_drop 64 l] at mem order
  rcases List.mem_append.mp mem with kept | left
  · exact .inl kept
  · refine .inr ⟨?_, fun d kept => (List.pairwise_append.mp order).2.2 d kept e left⟩
    by_contra short
    rw [List.drop_eq_nil_of_le (by omega)] at left
    cases left

section Result

variable {input : InputCopy} {c : SpanCopy} (wide : 1 ≤ (readingOf input c).guard)
  (whole : input.primary.length = (readingOf input c).points)
include wide whole

theorem length_events_le : (extract input c).events.length ≤ 64 := by
  rw [(events_extract input c wide whole).1, List.length_map]
  exact List.length_take_le ..

theorem pairwise_events : ((extract input c).events.map Event.location).Pairwise (· < ·) := by
  rw [(events_extract input c wide whole).1, List.map_map, List.pairwise_map]
  refine (((readingOf input c).pairwise_merged wide).sublist (List.take_sublist ..)).imp fun {e d} less => ?_
  rw [Function.comp_apply, Function.comp_apply, location_placed, location_placed]
  exact less

theorem fields_of_events (e : Event) (mem : e ∈ (extract input c).events) :
    (readingOf input c).EventAt e.location e.reflective ∧ EventFields (readingOf input c) e ∧
      e.distance = placeOf input c e.location := by
  rw [(events_extract input c wide whole).1] at mem
  obtain ⟨d, kept, rfl⟩ := List.mem_map.mp mem
  have here := List.mem_of_mem_take kept
  rw [location_placed, reflective_placed, distance_placed]
  exact ⟨((readingOf input c).eventAt_iff ..).mpr ⟨d, here, rfl, rfl⟩,
    ((readingOf input c).eventFields_of_merged here).placedAt _, rfl⟩

/-- The events that the limit keeps are those before the first that it leaves out. -/
theorem before_of_kept {location : Nat} (all : ∀ d ∈ (readingOf input c).merged.take 64, d.location < location) :
    ∀ e ∈ (extract input c).events, e.location < location := by
  intro e mem
  rw [(events_extract input c wide whole).1] at mem
  obtain ⟨d, kept, rfl⟩ := List.mem_map.mp mem
  rw [location_placed]
  exact all d kept

theorem events_complete (location : Nat) (reflective : Bool) (there : (readingOf input c).EventAt location reflective) :
    (∃ e ∈ (extract input c).events, e.location = location ∧ e.reflective = reflective) ∨
      ((extract input c).truncated = true ∧ (extract input c).events.length = 64 ∧
        ∀ e ∈ (extract input c).events, e.location < location) := by
  obtain ⟨events, truncated⟩ := events_extract input c wide whole
  obtain ⟨e, mem, rfl, rfl⟩ := ((readingOf input c).eventAt_iff ..).mp there
  rcases limited ((readingOf input c).pairwise_merged wide) e mem with kept | ⟨long, before⟩
  · refine .inl ⟨placed input c e, ?_, location_placed .., reflective_placed ..⟩
    rw [events]
    exact List.mem_map_of_mem kept
  · refine .inr ⟨by rw [truncated, decide_eq_true long], ?_, before_of_kept wide whole before⟩
    rw [events, List.length_map, List.length_take]
    omega

theorem truncated_leaves (isTruncated : (extract input c).truncated = true) :
    ∃ location reflective, (readingOf input c).EventAt location reflective ∧
      ∀ e ∈ (extract input c).events, e.location < location := by
  have order := (readingOf input c).pairwise_merged wide
  rw [(events_extract input c wide whole).2, decide_eq_true_iff] at isTruncated
  have here := List.getElem_mem isTruncated
  refine ⟨_, _, ((readingOf input c).eventAt_iff ..).mpr ⟨_, here, rfl, rfl⟩, before_of_kept wide whole fun d kept => ?_⟩
  obtain ⟨i, below, rfl⟩ := List.mem_take_iff_getElem.mp kept
  exact List.pairwise_iff_getElem.mp order i 64 _ isTruncated (by omega)

end Result

end Sys2Proof.Machine
end

section
/-! PROOFS. Matching and the finding list (R123 to R130), and the result of extraction as a whole; O59. -/

namespace Sys2Proof.Machine

/-! ### Matching (R123, R124) -/

theorem mayTake_iff (t : Nat) (m : Landmark) (e : Event) :
    (compatible m.kind e && distanceGap m.distance e.distance ≤ t) = true ↔ MayTake t m e := by
  rw [Bool.and_eq_true, decide_eq_true_iff, distanceGap_le, MayTake]
  refine and_congr_left fun _ => ?_
  cases kind : m.kind <;> simp [compatible]

/-- The events that the landmark may take. -/
def takeable (t : Nat) (m : Landmark) (events : List Event) : List Event :=
  events.filter (fun e => compatible m.kind e && distanceGap m.distance e.distance ≤ t)

theorem mem_takeable {t : Nat} {m : Landmark} {events : List Event} {e : Event} :
    e ∈ takeable t m events ↔ e ∈ events ∧ MayTake t m e := by
  rw [takeable, List.mem_filter, mayTake_iff]

/-- The better of the best event so far and the next. -/
def betterOf (d : Nat) (best : Option Event) (e : Event) : Option Event :=
  match best with
  | none => some e
  | some b => if takenBefore d e b then some e else some b

theorem chooseEvent_eq (t : Nat) (m : Landmark) (events : List Event) :
    chooseEvent t m events = (takeable t m events).foldl (betterOf m.distance) none := rfl

theorem takenBefore_iff (d : Nat) (a b : Event) : takenBefore d a b = true ↔
    distanceGap d a.distance < distanceGap d b.distance ∨ (distanceGap d a.distance = distanceGap d b.distance ∧
      (a.distance < b.distance ∨ (a.distance = b.distance ∧ a.location < b.location))) := by
  simp [takenBefore]

theorem takenBefore_asymm {d : Nat} {a b : Event} (h : takenBefore d a b = true) : takenBefore d b a = false := by
  rw [Bool.eq_false_iff]
  intro k
  rw [takenBefore_iff] at h k
  omega

theorem betterOf_stays {d : Nat} {e o : Event} (first : o = e ∨ takenBefore d e o = true) : betterOf d (some e) o = some e := by
  rcases first with rfl | before
  · exact ite_self _
  · exact if_neg (Bool.eq_false_iff.mp (takenBefore_asymm before))

theorem betterOf_takes {d : Nat} {e b : Event} (first : b = e ∨ takenBefore d e b = true) : betterOf d (some b) e = some e := by
  rcases first with rfl | before
  · exact ite_self _
  · exact if_pos before

/-- The best of some events, whatever is the best before them, if it comes before every other. -/
theorem foldl_betterOf {d : Nat} {e : Event} (l : List Event) (first : ∀ o ∈ l, o = e ∨ takenBefore d e o = true) :
    (∀ best : Option Event, (∀ b, best = some b → b = e ∨ takenBefore d e b = true) → e ∈ l →
      l.foldl (betterOf d) best = some e) ∧ l.foldl (betterOf d) (some e) = some e := by
  induction l with
  | nil => exact ⟨(by rintro _ _ ⟨⟩), rfl⟩
  | cons o l ih =>
    obtain ⟨takes, stays⟩ := ih fun o' mem => first o' (List.mem_cons_of_mem _ mem)
    have head := first o (List.mem_cons_self ..)
    refine ⟨fun best before mem => ?_, ?_⟩
    · rw [List.foldl_cons]
      rcases List.mem_cons.mp mem with rfl | later
      · have taken : betterOf d best e = some e := by
          cases best with
          | none => rfl
          | some b => exact betterOf_takes (before b rfl)
        rw [taken]
        exact stays
      · refine takes _ (fun b is => ?_) later
        cases best with
        | none => exact Option.some.inj is ▸ head
        | some c =>
          have either : b = o ∨ b = c := by
            by_cases isBefore : takenBefore d o c = true
            · exact .inl (Option.some.inj (is.symm.trans (if_pos isBefore)))
            · exact .inr (Option.some.inj (is.symm.trans (if_neg isBefore)))
          rcases either with rfl | rfl
          · exact head
          · exact before b rfl
    · rw [List.foldl_cons, betterOf_stays head]
      exact stays

theorem chooseEvent_of_takes {t : Nat} {m : Landmark} {events : List Event} {e : Event} (h : Takes t m events e) :
    chooseEvent t m events = some e := by
  obtain ⟨here, may, first⟩ := h
  rw [chooseEvent_eq]
  refine (foldl_betterOf _ fun o mem => ?_).1 none (by rintro _ ⟨⟩) (mem_takeable.mpr ⟨here, may⟩)
  obtain ⟨there, mayToo⟩ := mem_takeable.mp mem
  rw [takenBefore_iff]
  exact first o there mayToo

theorem chooseEvent_of_none {t : Nat} {m : Landmark} {events : List Event} (h : ∀ e ∈ events, ¬ MayTake t m e) :
    chooseEvent t m events = none := by
  have empty : takeable t m events = [] := List.eq_nil_iff_forall_not_mem.mpr fun e mem => by
    obtain ⟨here, may⟩ := mem_takeable.mp mem
    exact h e here may
  rw [chooseEvent_eq, empty]
  rfl

theorem matchLandmarks_of_some {t : Nat} {m : Landmark} {ms : List Landmark} {events : List Event} {e : Event}
    (h : chooseEvent t m events = some e) : matchLandmarks t (m :: ms) events =
      { pairs := (m, e) :: (matchLandmarks t ms (events.filter (fun o => o.location != e.location))).pairs
        unmatched := (matchLandmarks t ms (events.filter (fun o => o.location != e.location))).unmatched } := by
  simp only [matchLandmarks, h]

theorem matchLandmarks_of_none {t : Nat} {m : Landmark} {ms : List Landmark} {events : List Event}
    (h : chooseEvent t m events = none) : matchLandmarks t (m :: ms) events = matchLandmarks t ms events := by
  simp only [matchLandmarks, h]

/-- The unmatched events are some of the events. -/
theorem mem_of_unmatched {t : Nat} {ms : List Landmark} {events : List Event} {e : Event}
    (mem : e ∈ (matchLandmarks t ms events).unmatched) : e ∈ events := by
  induction ms generalizing events with
  | nil => exact mem
  | cons m ms ih =>
    cases chosen : chooseEvent t m events with
    | none =>
      rw [matchLandmarks_of_none chosen] at mem
      exact ih mem
    | some c =>
      rw [matchLandmarks_of_some chosen] at mem
      exact (List.mem_filter.mp (ih mem)).1

/-! ### The finding list (R125 to R130) -/

theorem filterMap_ite {α β : Type} (p : α → Prop) [DecidablePred p] (f : α → β) (l : List α) :
    l.filterMap (fun a => if p a then some (f a) else none) = (l.filter (fun a => decide (p a))).map f := by
  induction l with
  | nil => rfl
  | cons a l ih => by_cases holds : p a <;> simp [holds, ih]

theorem breakFinding_toList (t guard : Nat) (c : SpanCopy) (x : Extraction) (degraded : Bool) :
    (breakFinding t guard c x degraded).toList =
      (((c.landmarks.find? (fun l => l.kind == .farEnd)).toList.filter
        (fun far => x.endDistance + t < far.distance)).map (fun _ =>
      { kind := .break_, distance := x.endDistance, magnitude := breakMagnitude guard x, single := false
        degraded := degraded })) := by
  unfold breakFinding farEndOf
  cases c.landmarks.find? (fun l => l.kind == .farEnd) with
  | none => rfl
  | some far => by_cases short : x.endDistance + t < far.distance <;> simp [short]

theorem eventFinding_eq (c : SpanCopy) (degraded : Bool) (e : Event) : eventFinding c degraded e =
    if e.reflective then
      { kind := .reflection, distance := e.distance, magnitude := e.height, single := false, degraded := degraded }
    else
      { kind := match e.step2 with
          | none => .loss
          | some s2 => if (c.fields.bendMargin : Int) ≤ e.step - max 0 s2 then .bend else .loss
        distance := e.distance, magnitude := e.loss, single := e.step2.isNone, degraded := degraded } := by
  unfold eventFinding bendExcess
  cases e.step2 with
  | none => rfl
  | some s2 =>
    dsimp only
    split
    · rfl
    · split <;> rfl

theorem findingList_eq (guard : Nat) (c : SpanCopy) (x : Extraction) (degraded : Bool) :
    findingList guard c x degraded = sortBy findingLe (formedFindings guard c x degraded (matchTolerance c x)
      (matchLandmarks (matchTolerance c x) c.landmarks x.events)) := by
  have drifts (l : List (Landmark × Event)) : l.filterMap (driftFinding c degraded) = _ := filterMap_ite _ _ l
  unfold findingList formedFindings
  dsimp only
  rw [drifts, breakFinding_toList, funext (eventFinding_eq c degraded)]
  rfl

theorem findingLe_iff (f g : Finding) : findingLe f g = true ↔
    f.distance < g.distance ∨ (f.distance = g.distance ∧ kindOrder f.kind ≤ kindOrder g.kind) := by
  simp [findingLe]

theorem pairwise_findingList (guard : Nat) (c : SpanCopy) (x : Extraction) (degraded : Bool) :
    (findingList guard c x degraded).Pairwise (fun f g => f.distance < g.distance ∨
      (f.distance = g.distance ∧ kindOrder f.kind ≤ kindOrder g.kind)) := by
  refine (pairwise_sortBy (le := findingLe) (fun f g => ?_) (fun f g h hfg hgh => ?_) _).imp fun {f g} before =>
    (findingLe_iff f g).mp before
  · rw [findingLe_iff, findingLe_iff]
    omega
  · rw [findingLe_iff] at hfg hgh ⊢
    omega

/-- What every finding holds (R131). -/
theorem finding_inRange {guard : Nat} {c : SpanCopy} {x : Extraction} {degraded : Bool} (ends : x.endDistance ≤ c.rangeDistance)
    (events : ∀ e ∈ x.events, e.distance ≤ c.rangeDistance) (f : Finding) (mem : f ∈ findingList guard c x degraded) :
    f.distance ≤ c.rangeDistance ∧ f.degraded = degraded := by
  rw [findingList_eq, mem_sortBy] at mem
  unfold formedFindings at mem
  rcases List.mem_append.mp mem with mem | unmatched
  rcases List.mem_append.mp mem with drift | broken
  · obtain ⟨p, -, rfl⟩ := List.mem_map.mp drift
    exact ⟨min_le_right .., rfl⟩
  · obtain ⟨far, -, rfl⟩ := List.mem_map.mp broken
    exact ⟨ends, rfl⟩
  · obtain ⟨e, here, rfl⟩ := List.mem_map.mp unmatched
    have near := events e (mem_of_unmatched here)
    split <;> exact ⟨near, rfl⟩

/-! ### The learned list (R39, R135) -/

theorem length_learnedList_pos (x : Extraction) : 1 ≤ (learnedList x).length := by
  rw [learnedList_eq, List.length_append]
  exact Nat.le_add_left ..

theorem getLast?_learnedList (x : Extraction) :
    (learnedList x).getLast? = some { distance := x.endDistance, kind := .farEnd, loss := 0, height := 0 } := by
  rw [learnedList_eq, List.getLast?_append]
  rfl

theorem learnedList_inRange {x : Extraction} {m : Landmark} (mem : m ∈ learnedList x) :
    m.loss ≤ 20000 ∧ m.height ≤ 24082 ∧ m.distance ≤ x.endDistance := by
  rcases (mem_learnedList x m).mp mem with rfl | ⟨e, -, short, rfl⟩
  · exact ⟨Nat.zero_le _, Nat.zero_le _, Nat.le_refl _⟩
  · unfold becomesLandmark
    split
    · exact ⟨min_le_right .., min_le_right .., short.le⟩
    · exact ⟨min_le_right .., Nat.zero_le _, short.le⟩

/-! ### Distances (R118) -/

theorem endDistance_extract_le (input : InputCopy) (c : SpanCopy) : (extract input c).endDistance ≤ c.rangeDistance := min_le_right ..

theorem distance_extract_le (input : InputCopy) (c : SpanCopy) (e : Event) (mem : e ∈ (extract input c).events) :
    e.distance ≤ c.rangeDistance := by
  obtain ⟨d, -, rfl⟩ := List.mem_map.mp mem
  exact min_le_right ..

end Sys2Proof.Machine

namespace Sys2Proof

open Machine in
/-- Settles O59: what stays in range, the learned list, the trace as extraction reads it, matching, and the order of findings. -/
theorem findingsAndLearnedListsStayInRange : Obligations.FindingsAndLearnedListsStayInRange := by
  refine ⟨fun input c guard degraded => ⟨endDistance_extract_le input c, distance_extract_le input c,
      finding_inRange (endDistance_extract_le input c) (distance_extract_le input c)⟩,
    fun x => ?learned, ?extraction, fun t m ms events => ⟨rfl, fun h => matchLandmarks_of_none (chooseEvent_of_none h), ?matching⟩,
    ?order⟩
  case learned =>
    refine ⟨listLaw_learnedList x, length_learnedList_pos x, getLast?_learnedList x, fun m => learnedList_inRange,
      keptOf x.events, _, keptEvents_keptOf x.events, mem_learnedList x⟩
  case extraction =>
    rintro input c x z threshold rfl rfl - wide whole - rfl
    obtain ⟨found, absent⟩ := endOfFibre?_spec input.snapshot.profile.pointCount input.snapshot.profile.window
      (lowerBound input.snapshot.profile.window input.snapshot.profile.spacing c.fields.launchOffset) (endThreshold input)
      input.primary
    refine ⟨fun beyond => ?_, fun within => ?_, rfl, rfl, rfl, length_events_le wide whole, pairwise_events wide whole,
      fields_of_events wide whole, events_complete wide whole, truncated_leaves wide whole⟩
    · have none : inputEnd? input c.fields.launchOffset = none := Option.isNone_iff_eq_none.mp beyond
      refine ⟨by rw [endPoint_extract, none]; rfl, absent none⟩
    · obtain ⟨e, is⟩ : ∃ e, inputEnd? input c.fields.launchOffset = some e :=
        Option.ne_none_iff_exists'.mp fun none => by
          have beyond : (extract input c).endBeyondRange = true := Option.isNone_iff_eq_none.mpr none
          cases within.symm.trans beyond
      rw [endPoint_extract, is]
      exact found e is
  case matching =>
    rintro e takes rest rfl
    exact matchLandmarks_of_some (chooseEvent_of_takes takes)
  case order =>
    rintro guard c x degraded t rfl
    refine ⟨pairwise_findingList guard c x degraded, fun kind distance => ?_⟩
    rw [findingList_eq]
    refine filter_sortBy (fun f g hf hg => ?_) _
    rw [Bool.and_eq_true, beq_iff_eq, beq_iff_eq] at hf hg
    obtain ⟨rfl, rfl⟩ := hf
    rw [findingLe_iff, hg.1, hg.2]
    exact .inr ⟨rfl, Nat.le_refl _⟩

end Sys2Proof
end

section
/-! PROOFS. A span without a job over a dispatch pass: it gets none, and its record stands. -/

namespace Sys2Proof.Machine

/-! ### Where the jobs of a span are -/

theorem mem_queuedIds_span {s : State} {id : Nat} : JobId.span id ∈ s.queuedIds ↔
    (∃ c : Fin 4, id ∈ s.sched.classQueues.get c) ∨ ∃ d ∈ s.sched.demandQueue, d.span = id := by
  have place (waits : Bool) (own : Letter) : JobId.span id ∉ placeJobs waits own := by cases waits <;> simp [placeJobs]
  rw [queuedIds_eq, queueJobs]
  simp only [List.mem_append, place, or_false, List.mem_map, JobId.span.injEq, exists_eq_right, Quad.mem_flatten]

theorem mem_jobIds_span {s : State} {id : Nat} : JobId.span id ∈ s.jobIds ↔
    (∃ c : Fin 4, id ∈ s.sched.classQueues.get c) ∨ (∃ d ∈ s.sched.demandQueue, d.span = id) ∨
      ∃ f ∈ s.flights, f.work.id = .span id := by
  rw [State.jobIds, List.mem_append, mem_queuedIds_span, List.mem_map, or_assoc]

theorem mem_flights_of_channel {s : State} {ch : Letter} {f : Flight} (runs : (s.channels.get ch).activity.flight? = some f) :
    f ∈ s.flights := by
  unfold State.flights
  cases ch
  · change s.channels.a.activity.flight? = some f at runs
    simp [runs]
  · change s.channels.b.activity.flight? = some f at runs
    simp [runs]

theorem mem_jobIds_of_waits {s : State} {j : Job} (waits : j.WaitsIn s) {id : Nat} (is : j.id = .span id) :
    JobId.span id ∈ s.jobIds := by
  rw [mem_jobIds_span]
  cases j with
  | verify own => cases is
  | test kind k =>
    obtain rfl : k = id := JobId.span.inj is
    cases kind with
    | scheduled c => exact .inl ⟨c, waits⟩
    | demand => exact .inr (.inl ⟨_, waits, rfl⟩)
    | learn => exact .inr (.inl ⟨_, waits, rfl⟩)

/-- A span that is in no list of jobs has no job. -/
theorem jobPlace_eq_none {s : State} {id : Nat} (jobless : JobId.span id ∉ s.jobIds) : s.jobPlace id = none := by
  by_contra some_
  obtain ⟨p, place⟩ := Option.ne_none_iff_exists'.mp some_
  have holds := holdsJobOf_of_jobPlace place
  refine jobless (mem_jobIds_span.mpr ?_)
  cases p with
  | classQueue c => exact .inl ⟨c, holds⟩
  | demandQueue learn => exact .inr (.inl ⟨_, holds, rfl⟩)
  | channel ch f => exact .inr (.inr ⟨f, mem_flights_of_channel holds.1, holds.2⟩)
  | waiting f => exact .inr (.inr ⟨f, by simp [State.flights, holds.1], holds.2⟩)
  | analysing a => exact .inr (.inr ⟨a.flight, by simp [State.flights, holds.1], holds.2⟩)

/-! ### The records of other spans -/

theorem findSpan_of_directory {s t : State} (directory : t.directory = s.directory) (id : Nat) : t.findSpan id = s.findSpan id := by
  unfold State.findSpan State.spans
  rw [directory]

theorem findSpan_modifySpan {s : State} {k : Nat} {f : SpanRecord → SpanRecord} (keeps : ∀ q, (f q).id = q.id) (id : Nat) :
    (s.modifySpan k f).findSpan id = (s.findSpan id).map (fun q => if id = k then f q else q) := by
  have same : (fun q : SpanRecord => q.id == id) ∘ (fun q => if q.id = k then f q else q) = fun q => q.id == id := by
    funext q
    simp only [Function.comp]
    split
    · rw [keeps]
    · rfl
  unfold State.findSpan
  rw [spans_modifySpan, List.find?_map, same]
  cases found : s.spans.find? (fun q => q.id == id) with
  | none => rfl
  | some q =>
    have names : q.id = id := by simpa using List.find?_some found
    rw [Option.map_some, Option.map_some, names]

theorem findSpan_modifySpan_of_other {s : State} {id k : Nat} (other : k ≠ id) {f : SpanRecord → SpanRecord}
    (keeps : ∀ q, (f q).id = q.id) : (s.modifySpan k f).findSpan id = s.findSpan id := by
  rw [findSpan_modifySpan keeps]
  simp only [if_neg other.symm, Option.map_id']

theorem findSpan_modifySpan_self {s : State} {id : Nat} {f : SpanRecord → SpanRecord} (keeps : ∀ q, (f q).id = q.id) :
    (s.modifySpan id f).findSpan id = (s.findSpan id).map f := by
  rw [findSpan_modifySpan keeps]
  simp only [if_true]

theorem findSpan_endWithOutcome {s : State} {w : Work} {id : Nat} (other : w.id ≠ .span id) (o : LastOutcome) :
    (s.endWithOutcome w o).findSpan id = s.findSpan id := by
  have written (k : Nat) (differ : k ≠ id) : (s.writeOutcome k o none).findSpan id = s.findSpan id :=
    findSpan_modifySpan_of_other differ fun _ => rfl
  cases w with
  | verify own coil => rfl
  | test kind k revision =>
    have differ : k ≠ id := fun same => other (congrArg JobId.span same)
    cases kind with
    | scheduled c => exact written k differ
    | demand => exact written k differ
    | learn =>
      refine (findSpan_modifySpan_of_other differ fun q => ?_).trans (written k differ)
      unfold SpanRecord.endLearn
      split <;> rfl

/-! ### A span that is left alone -/

/-- The span has no job, and this is its record. -/
structure LeftAlone (id : Nat) (record : Option SpanRecord) (u : State) : Prop where
  jobless : JobId.span id ∉ u.jobIds
  stands  : u.findSpan id = record

section Alone

variable {id : Nat} {record : Option SpanRecord} {s t : State} (h : LeftAlone id record s)
include h

theorem LeftAlone.of_onlyEnds (ends : OnlyEnds s t) (stands : t.findSpan id = s.findSpan id) : LeftAlone id record t :=
  ⟨fun mem => h.jobless (ends.mem mem), stands.trans h.stands⟩

theorem LeftAlone.work_ne {ch : Letter} {f : Flight} (runs : (s.channels.get ch).activity.flight? = some f) :
    f.work.id ≠ .span id := fun is => h.jobless (mem_jobIds_span.mpr (.inr (.inr ⟨f, mem_flights_of_channel runs, is⟩)))

theorem LeftAlone.settle (l : Letter) (sense : Option Nat) : LeftAlone id record (s.settle l sense) := by
  refine h.of_onlyEnds (onlyEnds_settle s l sense) ?_
  unfold State.settle
  dsimp only
  split
  · split <;> rfl
  split
  next ch _ _ stage f busy =>
    split
    · rfl
    · have other := h.work_ne (ch := ch) (f := f) (by rw [busy]; rfl)
      exact findSpan_endWithOutcome (s := s.setBank l ((s.banks.get l).faulted sense)) other .bankFault
  · split <;> rfl
  · split <;> rfl

theorem LeftAlone.setBank (l : Letter) (b : Bank) : LeftAlone id record (s.setBank l b) :=
  h.of_onlyEnds (.of_frame (setBank_frame ..) rfl) rfl

theorem LeftAlone.takeBank (ch l : Letter) (position : Nat) (sense : Option Nat) :
    LeftAlone id record (s.takeBank ch l position sense) := by
  unfold State.takeBank
  dsimp only
  split
  · split
    · exact (h.setBank ..).settle ..
    · exact h.setBank ..
  · split <;> exact h.setBank ..

theorem LeftAlone.started (ch : Letter) {j : Job} (other : j.id ≠ .span id) : LeftAlone id record (s.started ch j) := by
  have frame := started_frame s ch j
  refine ⟨fun mem => h.jobless ?_, (findSpan_of_directory (frame.same .directory (by decide)) id).trans h.stands⟩
  have queues : (∃ c : Fin 4, id ∈ (s.unqueue j).sched.classQueues.get c) ∨ (∃ d ∈ (s.unqueue j).sched.demandQueue, d.span = id) →
      (∃ c : Fin 4, id ∈ s.sched.classQueues.get c) ∨ ∃ d ∈ s.sched.demandQueue, d.span = id := by
    have fromClass (k : Nat) : (∃ c : Fin 4, id ∈ (s.leaveClassQueue k).sched.classQueues.get c) →
        ∃ c : Fin 4, id ∈ s.sched.classQueues.get c := by
      rintro ⟨c, here⟩
      change id ∈ (s.sched.classQueues.map _).get c at here
      rw [Quad.get_map] at here
      exact ⟨c, List.mem_of_mem_filter here⟩
    have fromDemand (k : Nat) : (∃ d ∈ (s.leaveDemandQueue k).sched.demandQueue, d.span = id) →
        ∃ d ∈ s.sched.demandQueue, d.span = id := fun ⟨d, here, is⟩ => ⟨d, List.mem_of_mem_filter here, is⟩
    cases j with
    | verify own => exact fun h => h
    | test kind k =>
      cases kind with
      | scheduled c => exact Or.imp (fromClass k) (fun h => h)
      | demand => exact Or.imp (fun h => h) (fromDemand k)
      | learn => exact Or.imp (fun h => h) (fromDemand k)
  have sched : (s.started ch j).sched = (s.unqueue j).sched :=
    ((takeBuffers_frame (s.unqueue j) j.id (s.planFor ch j)).same .sched (by decide) :)
  have counted : (s.started ch j).flightIds.count (.span id) ≤ s.flightIds.count (.span id) := by
    have before : KeepsBut [.sched, .buffers] s ((s.unqueue j).takeBuffers j.id (s.planFor ch j)) :=
      ((unqueue_frame s j).mono (by decide)).trans ((takeBuffers_frame ..).mono (by decide))
    have same : ((s.unqueue j).takeBuffers j.id (s.planFor ch j)).channels = s.channels := before.same .channels (by decide)
    have channels : (s.started ch j).channels =
        s.channels.set ch { s.channels.get ch with activity := .busy .switching (s.flightOf ch j) } := by
      change ((s.unqueue j).takeBuffers j.id (s.planFor ch j)).channels.set ch
        { ((s.unqueue j).takeBuffers j.id (s.planFor ch j)).channels.get ch with
          activity := .busy .switching (s.flightOf ch j) } = _
      rw [same]
    have counted := count_flightIds_set channels (frame.same .engine (by decide)) (.span id)
    have new : (s.flightOf ch j).work.id ≠ .span id := by
      rw [(startsAs_flightOf s ch j).id]
      exact other
    rw [Channel.jobs_of_flight (c := { s.channels.get ch with activity := .busy .switching (s.flightOf ch j) }) rfl,
      List.count_singleton, beq_eq_false_iff_ne.mpr new] at counted
    simp only [Bool.false_eq_true, if_false, Nat.add_zero] at counted
    omega
  rw [mem_jobIds_span, sched, ← or_assoc] at mem
  rw [mem_jobIds_span, ← or_assoc]
  refine mem.imp queues fun flies => ?_
  exact mem_flightIds.mp (List.count_pos_iff.mp (Nat.lt_of_lt_of_le (List.count_pos_iff.mpr (mem_flightIds.mpr flies)) counted))

theorem LeftAlone.dispatch (ch : Letter) {j : Job} (other : j.id ≠ .span id) (senses : Pair (Option Nat)) :
    LeftAlone id record (s.dispatch ch j senses) := by
  cases port : s.portOf j with
  | none =>
    have stays : s.dispatch ch j senses = s := by
      unfold State.dispatch
      rw [port]
    rwa [stays]
  | some at_ =>
    obtain ⟨l, position⟩ := at_
    rw [dispatch_eq senses (portOf_eq_some.mp port)]
    exact (h.started ch other).takeBank ..

theorem LeftAlone.considerChannel (senses : Pair (Option Nat)) (ch : Letter) :
    LeftAlone id record (s.considerChannel senses ch) := by
  refine considerChannel_keeps (fun u j idle chosen hu => ?_) h
  have alone : LeftAlone id record { u with sched := (u.choose ch).sched } := hu.of_onlyEnds (onlyEnds_chosen u ch) rfl
  exact alone.dispatch ch (fun is => hu.jobless (mem_jobIds_of_waits (waitsIn_of_choose chosen) is)) senses

theorem LeftAlone.preemptFor (senses : Pair (Option Nat)) {d : Nat} (other : d ≠ id) :
    LeftAlone id record (State.preemptFor senses s d) := by
  refine preemptFor_keeps (fun ch f c k rev busy work aborts eligible => ?_) h
  have directory : (s.abortChannel ch).directory = s.directory := (abortChannel_frame s ch).same .directory (by decide)
  have requeued : LeftAlone id record ((s.abortChannel ch).requeueScheduled c k) :=
    h.of_onlyEnds (onlyEnds_requeued busy (id := k) (by rw [work]; rfl) c)
      (findSpan_of_directory (s := s) (t := (s.abortChannel ch).requeueScheduled c k) directory id)
  exact requeued.dispatch ch (j := .test .demand d) (fun is => other (JobId.span.inj is)) senses

theorem LeftAlone.preempt (senses : Pair (Option Nat)) : LeftAlone id record (s.preempt senses) := by
  have fold (l : List Nat) : ∀ u : State, (∀ d ∈ l, d ≠ id) → LeftAlone id record u →
      LeftAlone id record (l.foldl (State.preemptFor senses) u) := by
    induction l with
    | nil => exact fun _ _ hu => hu
    | cons d l ih =>
      intro u others hu
      exact ih _ (fun e mem => others e (List.mem_cons_of_mem _ mem)) (hu.preemptFor senses (others d (List.mem_cons_self ..)))
  unfold State.preempt
  split
  · refine fold _ s (fun d mem is => h.jobless (mem_jobIds_span.mpr (.inr (.inl ?_)))) h
    obtain ⟨e, waits, rfl⟩ := List.mem_map.mp mem
    exact ⟨e, List.mem_of_mem_filter waits, is⟩
  · exact h

theorem LeftAlone.dispatchPass (senses : Pair (Option Nat)) : LeftAlone id record (s.dispatchPass senses) := by
  have answered : LeftAlone id record { s with sched := { s.sched with dispatchCalled := false } } :=
    h.of_onlyEnds (.of_queues ((sched_frame s _).mono (by decide)) (fun _ => Nat.le_refl _)) rfl
  exact (((answered.considerChannel senses .A).considerChannel senses .B).preempt senses).of_onlyEnds
    (.of_frame (now_frame ..) rfl) rfl

end Alone

end Sys2Proof.Machine
end

section
/-! PROOFS. SPAN_HOLD and SPAN_RESUME (R14, R15), and a hold that comes together with a window open; O25. -/

namespace Sys2Proof.Machine

/-! ### A span over a window open (R164) -/

theorem classQueues_raiseWindow (s : State) (c : Fin 4) : s.raiseWindow.sched.classQueues.get c =
    s.sched.classQueues.get c ++ s.openedIds (wrapSucc s.timeBase.windowNumber) c := by
  fin_cases c <;> rfl

theorem notMem_openedIds {s : State} {id : Nat} (inactive : ∀ r ∈ s.spans, r.id = id → r.state ≠ .active) (window : Nat) (c : Fin 4) :
    id ∉ s.openedIds window c := by
  intro mem
  obtain ⟨r, queued, names⟩ := List.mem_map.mp mem
  obtain ⟨here, due⟩ := List.mem_filter.mp queued
  simp only [State.queuesAtOpen, Bool.and_eq_true, beq_iff_eq] at due
  obtain ⟨⟨⟨active, -⟩, -⟩, -⟩ := due
  exact inactive r here names active

/-- The span has no job but, it may be, a queued SCHEDULED one, and this is its record. -/
structure AtMostQueued (id : Nat) (record : Option SpanRecord) (u : State) : Prop where
  demand  : ∀ d ∈ u.sched.demandQueue, d.span ≠ id
  flights : ∀ f ∈ u.flights, f.work.id ≠ .span id
  stands  : u.findSpan id = record

theorem leftAlone_iff {id : Nat} {record : Option SpanRecord} {u : State} :
    LeftAlone id record u ↔ AtMostQueued id record u ∧ ∀ c : Fin 4, id ∉ u.sched.classQueues.get c := by
  constructor
  · rintro ⟨jobless, stands⟩
    simp only [mem_jobIds_span, not_or, not_exists, not_and] at jobless
    obtain ⟨queues, demand, flights⟩ := jobless
    exact ⟨⟨demand, flights, stands⟩, queues⟩
  · rintro ⟨⟨demand, flights, stands⟩, queues⟩
    refine ⟨?_, stands⟩
    simp only [mem_jobIds_span, not_or, not_exists, not_and]
    exact ⟨queues, demand, flights⟩

section Open

variable {id : Nat} {record : Option SpanRecord} {s : State} {held : List Nat} (h : LeftAlone id record s)
include h

/-- The pass of a window open passes over the span, if its job is set aside or it gets none. -/
theorem LeftAlone.passedOver
    (apart : id ∈ held ∨ ∀ c, id ∉ s.openedIds (wrapSucc s.timeBase.windowNumber) c) (senses : Pair (Option Nat)) :
    LeftAlone id record ((s.raiseWindow.drawn.setAside held).dispatchPass senses) := by
  obtain ⟨⟨demand, flights, stands⟩, queues⟩ := leftAlone_iff.mp h
  refine LeftAlone.dispatchPass (s := s.raiseWindow.drawn.setAside held) (leftAlone_iff.mpr ⟨⟨demand, flights, stands⟩, fun c mem => ?_⟩) senses
  change id ∈ (s.raiseWindow.sched.classQueues.map _).get c at mem
  rw [Quad.get_map, classQueues_raiseWindow, List.mem_filter, List.mem_append] at mem
  obtain ⟨queued | opened, notHeld⟩ := mem
  · exact queues c queued
  · rcases apart with isHeld | never
    · simp [isHeld] at notHeld
    · exact never c opened

theorem LeftAlone.atMostQueued_openWindow
    (apart : id ∈ held ∨ ∀ c, id ∉ s.openedIds (wrapSucc s.timeBase.windowNumber) c) : AtMostQueued id record (s.openWindow held) := by
  obtain ⟨⟨demand, flights, stands⟩, -⟩ := leftAlone_iff.mp (h.passedOver apart s.drawnSenses)
  exact ⟨demand, flights, stands⟩

theorem LeftAlone.openWindow (never : ∀ c, id ∉ s.openedIds (wrapSucc s.timeBase.windowNumber) c) :
    LeftAlone id record (s.openWindow held) := by
  obtain ⟨-, passed⟩ := leftAlone_iff.mp (h.passedOver (held := held) (.inr never) s.drawnSenses)
  obtain ⟨-, queues⟩ := leftAlone_iff.mp h
  refine leftAlone_iff.mpr ⟨h.atMostQueued_openWindow (.inr never), fun c mem => ?_⟩
  obtain ⟨v, isV⟩ : ∃ v, v = (s.raiseWindow.drawn.setAside held).dispatchPass s.drawnSenses := ⟨_, rfl⟩
  rw [← isV] at passed
  have joined : (s.openWindow held).sched.classQueues.get c = v.sched.classQueues.get c ++
      (s.raiseWindow.sched.classQueues.get c).filter (fun i => held.contains i) := by
    rw [State.openWindow, ← isV]
    fin_cases c <;> rfl
  rw [joined, List.mem_append] at mem
  rcases mem with queued | back
  · exact passed c queued
  · rw [classQueues_raiseWindow, List.mem_filter, List.mem_append] at back
    exact back.1.elim (queues c) (never c)

end Open

/-! ### SPAN_HOLD (R14) -/

theorem actSpanHold_of_none {id : U16} {s : State} (unheld : s.findSpan id.toNat = none) :
    actSpanHold id s = (s, Reply.refusal .notFound) := by
  rw [actSpanHold, unheld]

theorem actSpanResume_of_none {id : U16} {s : State} (unheld : s.findSpan id.toNat = none) :
    actSpanResume id s = (s, Reply.refusal .notFound) := by
  rw [actSpanResume, unheld]

section Found

variable {id : U16} {s : State} {r : SpanRecord} (found : s.findSpan id.toNat = some r)
include found

theorem actSpanHold_of_active (active : r.state = .active) : actSpanHold id s =
    ((s.leaveClassQueue id.toNat).modifySpan id.toNat (SpanRecord.goTo .held), stateReply id.toNat .held) := by
  simp only [actSpanHold, found, if_pos active]

theorem actSpanHold_of_inactive (inactive : r.state ≠ .active) : actSpanHold id s = (s, Reply.refusal .wrongState) := by
  simp only [actSpanHold, found, if_neg inactive]

theorem actSpanResume_of_resumable (resumable : r.resumable = true) : actSpanResume id s =
    (s.modifySpan id.toNat (SpanRecord.goTo .active), stateReply id.toNat .active) := by
  simp only [actSpanResume, found, if_pos resumable]

theorem actSpanResume_of_other (other : r.resumable = false) : actSpanResume id s = (s, Reply.refusal .wrongState) := by
  simp only [actSpanResume, found, other, Bool.false_eq_true, if_false]

end Found

theorem hasFarEnd_iff (l : List Landmark) : hasFarEnd l = true ↔ ∃ m ∈ l, m.kind = .farEnd := by
  simp [hasFarEnd]

theorem resumable_iff (r : SpanRecord) :
    r.resumable = true ↔ r.state = .held ∨ (r.state = .draft ∧ ∃ m ∈ r.landmarks, m.kind = .farEnd) := by
  simp [SpanRecord.resumable, hasFarEnd_iff]

theorem held_frame (s : State) (id : Nat) :
    KeepsBut [.directory, .sched] s ((s.leaveClassQueue id).modifySpan id (SpanRecord.goTo .held)) :=
  keepsBut_of_all fun p => by cases p <;> first | (left; simp; done) | exact .inr rfl

/-- A SPAN_HOLD that is taken. -/
theorem exec_spanHold_of_active {id : U16} {s : State} {r : SpanRecord} (ready : s.ready = true)
    (found : s.findSpan id.toNat = some r) (active : r.state = .active) :
    ∃ t, exec (.spanHold id) s = .next t ∧ Answered s t .ok (be16 id.toNat ++ [4]) ∧ KeepsBut [.link, .directory, .sched] s t ∧
      KeepsBut [.link] ((s.leaveClassQueue id.toNat).modifySpan id.toNat (SpanRecord.goTo .held)) t ∧
      SpanBecomes id.toNat (SpanRecord.goTo .held) s t := by
  have acts := actSpanHold_of_active (s := s.discardPending) found active
  obtain ⟨runs, answered, keeps⟩ := exec_of_act (i := .spanHold id) (n := 5) ready rfl acts (held_frame ..) (by decide)
  have becomes : SpanBecomes id.toNat (SpanRecord.goTo .held) (s.leaveClassQueue id.toNat)
      ((s.leaveClassQueue id.toNat).modifySpan id.toNat (SpanRecord.goTo .held)) := spanBecomes_modifySpan fun _ same => same
  refine ⟨_, runs, answered, keeps, ?_, (becomes.congr_left (u := s) rfl).congr_right rfl⟩
  exact keepsBut_of_all fun p => by cases p <;> first | (left; simp; done) | exact .inr rfl

/-- A hold of a span whose job is no further than its class queue: the span is HELD and has none. -/
theorem hold_leavesAlone {id : U16} {s : State} {r : SpanRecord} (ready : s.ready = true) (h : AtMostQueued id.toNat (some r) s)
    (active : r.state = .active) :
    ∃ t, exec (.spanHold id) s = .next t ∧ t.ready = true ∧ KeepsBut [.link, .directory, .sched] s t ∧
      LeftAlone id.toNat (some (r.goTo .held)) t ∧ ∀ q ∈ t.spans, q.id = id.toNat → q.state ≠ .active := by
  obtain ⟨t, runs, answered, keeps, after, becomes⟩ := exec_spanHold_of_active ready h.stands active
  have found := findSpan_of_directory (s := (s.leaveClassQueue id.toNat).modifySpan id.toNat (SpanRecord.goTo .held))
    (after.same .directory (by decide)) id.toNat
  rw [findSpan_modifySpan_self (f := SpanRecord.goTo .held) fun _ => rfl] at found
  have record : (s.leaveClassQueue id.toNat).findSpan id.toNat = some r := h.stands
  have sched : t.sched = (s.leaveClassQueue id.toNat).sched := after.same .sched (by decide)
  have flights : t.flights = s.flights := by
    have channels : t.channels = s.channels := keeps.same .channels (by decide)
    have engine : t.engine = s.engine := keeps.same .engine (by decide)
    rw [State.flights, channels, engine]
    rfl
  refine ⟨t, runs, ?_, keeps, leftAlone_iff.mpr ⟨⟨?_, ?_, ?_⟩, fun c mem => ?_⟩, fun q mem names => ?_⟩
  · rw [State.ready, answered.waiting]
    rfl
  · rw [sched]
    exact h.demand
  · rw [flights]
    exact h.flights
  · rw [found, record]
    rfl
  · rw [sched] at mem
    change id.toNat ∈ (s.sched.classQueues.map _).get c at mem
    rw [Quad.get_map, List.mem_filter] at mem
    simp at mem
  · rw [becomes.spans] at mem
    obtain ⟨p, -, rfl⟩ := List.mem_map.mp mem
    by_cases same : p.id = id.toNat
    · rw [if_pos same]
      exact (by decide : SpanState.held ≠ .active)
    · rw [if_neg same] at names
      exact absurd names same

/-! ### A hold and a window open in two steps (R14) -/

theorem step_of_pending {s : State} {i : Instr} {rest : List Instr} (waits : s.pending = i :: rest) :
    step s = exec i (s.withPending rest) := by
  simp only [step, waits]

/-- What two steps leave of a span that was ACTIVE and is now HELD without a job. -/
theorem LeftAlone.ended {id : Nat} {r : SpanRecord} {u : State} (h : LeftAlone id (some (r.goTo .held)) u) (names : r.id = id) :
    u.jobPlace r.id = none ∧ ∃ q ∈ u.spans, q.id = r.id ∧ q.state = .held ∧ q.missed = r.missed := by
  obtain ⟨mem, -⟩ := findSpan_some h.stands
  rw [names]
  exact ⟨jobPlace_eq_none h.jobless, _, mem, names, rfl, rfl⟩

theorem LeftAlone.timed {id : Nat} {record : Option SpanRecord} {s : State} (h : LeftAlone id record s) (l : Link) (b : TimeBase)
    (n : Nat) : LeftAlone id record (s.timed l b n) := ⟨h.jobless, h.stands⟩

/-- A window open leaves alone a span that is not ACTIVE and has no job, whichever command brings it. -/
theorem opening_leavesAlone {id : Nat} {record : Option SpanRecord} {s : State} (h : LeftAlone id record s) (ready : s.ready = true)
    (inactive : ∀ q ∈ s.spans, q.id = id → q.state ≠ .active) {i : Instr} (opens : OpensTheWindow s i) :
    ∃ t, exec i s = .next t ∧ LeftAlone id record t := by
  have after {l : Link} {b : TimeBase} {n : Nat} {held : List Nat} {t : State}
      (keeps : KeepsBut [.link] ((s.timed l b n).retestWindow held) t) (inside : Inside b.timeOfDay b.openTime b.closeTime)
      (closed : b.windowOpen = false) : LeftAlone id record t := by
    rw [retestWindow_of_opens (s := s.timed l b n) inside closed] at keeps
    have alone := (h.timed l b n).openWindow (held := held) (notMem_openedIds inactive _)
    exact alone.of_onlyEnds (.of_frame keeps (by decide)) (findSpan_of_directory (keeps.same .directory (by decide)) id)
  cases i
  case timeAdvance =>
    obtain ⟨closed, inside⟩ := opens
    exact ⟨_, exec_timeAdvance s, after (KeepsBut.refl [.link] (s.advanceTested.retestWindow s.heldTogether)) inside closed⟩
  case clockSet v =>
    obtain ⟨-, within, closed, inside⟩ := opens
    obtain ⟨t, runs, -, keeps⟩ := exec_clockSet_of_le ready within
    exact ⟨t, runs, after keeps inside closed⟩
  case windowSet o c =>
    obtain ⟨-, start, stop, closed, inside⟩ := opens
    obtain ⟨t, runs, -, keeps⟩ := exec_windowSet_of_le ready start stop
    exact ⟨t, runs, after keeps inside closed⟩
  all_goals exact opens.elim

theorem OpensTheWindow.congr {s t : State} {i : Instr} (opens : OpensTheWindow s i) (timeBase : t.timeBase = s.timeBase)
    (ready : t.ready = true) : OpensTheWindow t i := by
  cases i
  case timeAdvance =>
    rw [OpensTheWindow, timeBase]
    exact opens
  case clockSet v =>
    obtain ⟨-, rest⟩ := opens
    rw [OpensTheWindow, timeBase]
    exact ⟨ready, rest⟩
  case windowSet o c =>
    obtain ⟨-, rest⟩ := opens
    rw [OpensTheWindow, timeBase]
    exact ⟨ready, rest⟩
  all_goals exact opens.elim

section Together

variable {id : U16} {rest : List Instr} {r : SpanRecord} {s : State} (ready : s.ready = true) (directory : DirectoryLaw s)
  (here : r ∈ s.spans) (names : r.id = id.toNat) (active : r.state = .active) (jobless : s.jobPlace r.id = none)
include directory here names jobless

theorem leftAlone_of_jobless : LeftAlone id.toNat (some r) s :=
  ⟨names ▸ notMem_jobIds_of_jobPlace jobless, names ▸ findSpan_of_mem directory here⟩

include ready active

/-- The hold directly behind the open (log entry 28). -/
theorem endsHeld_of_open_first (opens : OpensTheWindow s .timeAdvance) :
    ∃ u, EndsHeld r (s.withPending (.timeAdvance :: .spanHold id :: rest)) u := by
  obtain ⟨closed, inside⟩ := opens
  obtain ⟨w, isW⟩ : ∃ w, w = s.withPending (.spanHold id :: rest) := ⟨_, rfl⟩
  have alone : LeftAlone id.toNat (some r) w.advanceTested := by
    rw [isW]
    obtain ⟨jobless, stands⟩ := leftAlone_of_jobless directory here names jobless
    exact ⟨jobless, stands⟩
  have together : w.heldTogether = [id.toNat] := by
    have found : w.findSpan id.toNat = some r := alone.stands
    have isReady : w.ready = true := by rw [isW]; exact ready
    have waits : w.pending = .spanHold id :: rest := by rw [isW]; rfl
    simp [State.heldTogether, waits, isReady, found, active]
  have opened := alone.atMostQueued_openWindow (held := [id.toNat]) (.inl (List.mem_singleton.mpr rfl))
  have frame := openWindow_frame w.advanceTested [id.toNat]
  have first : step (s.withPending (.timeAdvance :: .spanHold id :: rest)) = .next (w.advanceTested.openWindow [id.toNat]) := by
    rw [step_of_pending rfl]
    change exec .timeAdvance (s.withPending (.spanHold id :: rest)) = _
    rw [← isW, exec_timeAdvance, together,
      retestWindow_of_opens (s := w.advanceTested) (by rw [isW]; exact inside) (by rw [isW]; exact closed)]
  have waits : (w.advanceTested.openWindow [id.toNat]).pending = .spanHold id :: rest := by
    rw [frame.same .pending (by decide), isW]
    rfl
  have stillReady : (w.advanceTested.openWindow [id.toNat]).ready = true := by
    rw [State.ready, frame.same .link (by decide), isW]
    exact ready
  obtain ⟨u, runs, -, -, alone, -⟩ := hold_leavesAlone (id := id) (s := (w.advanceTested.openWindow [id.toNat]).withPending rest)
    stillReady ⟨opened.demand, opened.flights, opened.stands⟩ active
  exact ⟨u, _, first, (step_of_pending waits).trans runs, alone.ended names⟩

/-- The hold before the open. -/
theorem endsHeld_of_hold_first {i : Instr} (opens : OpensTheWindow s i) :
    ∃ u, EndsHeld r (s.withPending (.spanHold id :: i :: rest)) u := by
  obtain ⟨⟨demand, flights, stands⟩, -⟩ := leftAlone_iff.mp (leftAlone_of_jobless directory here names jobless)
  obtain ⟨t, first, stillReady, keeps, alone, inactive⟩ := hold_leavesAlone (id := id) (s := s.withPending (i :: rest)) ready
    ⟨demand, flights, stands⟩ active
  have waits : t.pending = i :: rest := keeps.same .pending (by decide)
  have opensThere : OpensTheWindow (t.withPending rest) i :=
    opens.congr (t := t.withPending rest) (keeps.same .timeBase (by decide)) stillReady
  obtain ⟨u, runs, still⟩ := opening_leavesAlone (s := t.withPending rest) (id := id.toNat) ⟨alone.jobless, alone.stands⟩ stillReady
    inactive opensThere
  exact ⟨u, t, (step_of_pending rfl).trans first, (step_of_pending waits).trans runs, still.ended names⟩

end Together

end Sys2Proof.Machine

namespace Sys2Proof

open Machine in
/-- Settles O25: a hold and a window open together in both orders, then each command with its refusals. -/
theorem spanHoldAndResumeMoveTheSpan : Obligations.SpanHoldAndResumeMoveTheSpan := by
  refine ⟨fun id i rest r s ready directory here names active jobless opens => ⟨?openFirst,
      endsHeld_of_hold_first ready directory here names active jobless opens⟩,
    fun id s ready law => ⟨fun unheld => ⟨turnsAway_of_act ready rfl (actSpanHold_of_none (findSpan_eq_none unheld)),
      turnsAway_of_act ready rfl (actSpanResume_of_none (findSpan_eq_none unheld))⟩, fun r here names => ?found⟩⟩
  case openFirst =>
    rintro rfl
    exact endsHeld_of_open_first ready directory here names active jobless opens
  case found =>
    have found : s.discardPending.findSpan id.toNat = some r := findSpan_of_held law here names
    refine ⟨fun active => ?_, fun inactive => turnsAway_of_act ready rfl (actSpanHold_of_inactive found inactive),
      fun resumable => ?_, fun other => ?_⟩
    · obtain ⟨t, runs, answered, keeps, after, becomes⟩ := exec_spanHold_of_active ready (s := s) found active
      rw [names]
      exact ⟨t, runs, answered, keeps, becomes, after.same .sched (by decide)⟩
    · have acts := actSpanResume_of_resumable found ((resumable_iff r).mpr resumable)
      rw [← names] at acts
      obtain ⟨runs, answered, keeps⟩ := exec_of_act (i := .spanResume id) (n := 5) ready rfl acts (modifySpan_frame ..) (by decide)
      exact ⟨_, runs, answered, keeps, (spanBecomes_modifySpan (s := s) (f := SpanRecord.goTo .active) fun _ same => same).congr_right rfl⟩
    · refine turnsAway_of_act ready rfl (actSpanResume_of_other found (Bool.eq_false_iff.mpr fun resumable => ?_))
      rcases (resumable_iff r).mp resumable with held | ⟨draft, m, mem, far⟩
      · rcases other with state | state | state | ⟨state, -⟩ <;> cases held.symm.trans state
      · rcases other with state | state | state | ⟨-, none⟩
        · cases draft.symm.trans state
        · cases draft.symm.trans state
        · cases draft.symm.trans state
        · exact none m mem far

end Sys2Proof
end
